-- ==== Sys2Proof/Word.lean ====
section
/-! DEFINITION. The words of THEIA: a 64-bit instruction word (30_encoding.md R70), a 32-bit literal (R82), the three channel names
and a value for each of the three lanes, of any width W (00_scope.md R8). -/

namespace Sys2Proof

/-- A literal IMMV, 32 bits (30_encoding.md R82); also a channel value under the default `W` = 32 (10_state.md R21, log 3). -/
abbrev Word := BitVec 32

/-- An instruction word: "THEIA instructions are 64 bits wide" (30_encoding.md R70). -/
abbrev Insn := BitVec 64

/-- One byte of a program image (20_memory.md R54). -/
abbrev Byte := BitVec 8

/-- The three channels of a register, which are also the names of the three lanes (10_state.md R21). -/
inductive Chan where
  | x
  | y
  | z
deriving DecidableEq, Repr

/-- One value for each of the three channels or lanes (00_scope.md R8: a triple `(vx, vy, vz)`). -/
structure Vec3 (α : Type) where
  x : α
  y : α
  z : α
deriving DecidableEq, Repr

/-- A vector of three channel values of `W` bits, such as a prepared operand or a result (00_scope.md R8). -/
abbrev Vec (W : Nat) := Vec3 (BitVec W)

/-- `v.c` of 00_scope.md R8. -/
def Vec3.get {α : Type} (v : Vec3 α) : Chan → α
  | .x => v.x
  | .y => v.y
  | .z => v.z

/-- `u(v)` of 00_scope.md R8 in each lane: the unsigned readings of a vector of channel values. -/
def Vec3.readings {W : Nat} (v : Vec W) : Vec3 Nat := ⟨v.x.toNat, v.y.toNat, v.z.toNat⟩

/-- All three readings are below a bound. -/
def Vec3.below (v : Vec3 Nat) (bound : Nat) : Bool := decide (v.x < bound) && decide (v.y < bound) && decide (v.z < bound)

/-- The vector whose lane `c` is `f c`. -/
def Vec3.ofLanes {α : Type} (f : Chan → α) : Vec3 α := ⟨f .x, f .y, f .z⟩

/-- The same value in all three lanes. -/
def Vec3.all {α : Type} (a : α) : Vec3 α := ⟨a, a, a⟩

end Sys2Proof
end

