-- ==== Sys2Proof/Syntax.lean ====
section
/-! DEFINITION. The instructions of THEIA: one constructor of `Instr` for each row of spec/opcode_table.json
(30_encoding.md R110), with its operands as fields already taken apart. -/

namespace Sys2Proof

/-- A register source operand (30_encoding.md R83, R78, R79, R80): the 8-bit index, whether it is displaced by `offset`
(R90), for each lane whether it is negated (SIGN*), and for each lane which channel of the register feeds it (SWZZ*, read by
R79; the code 11 names no channel, so it has no value here, R104). -/
structure Src where
  addr : BitVec 8
  displaced : Bool
  neg : Vec3 Bool
  sel : Vec3 Chan
deriving DecidableEq, Repr

/-- A register destination (30_encoding.md R83, R77): the 8-bit index, whether it is displaced, and WEX, WEY, WEZ. -/
structure Dst where
  index : BitVec 8
  displaced : Bool
  we : Vec3 Bool
deriving DecidableEq, Repr

/-- The operations of Table 3 that compute a result which a branch can test (30_encoding.md R76, R105). -/
inductive AluOp where
  | add
  | div
  | mul
  | sqrt
  | logic
deriving DecidableEq, Repr

/-- The branch types of Table 18 (30_encoding.md R81). -/
inductive BranchType where
  | always
  | zero
  | notZero
  | sign
  | notSign
  | zeroOrSign
  | zeroOrNotSign
deriving DecidableEq, Repr

/-- The fields that every operation carries beside its OPCODE: EOF, bit 58 (30_encoding.md R103), and the selector SCOP/LOP, bits
62:59 (R101, 42_logic_io.md R190). -/
structure Control where
  eof : Bool
  scop : BitVec 4
deriving DecidableEq, Repr

/-- One constructor per row of spec/opcode_table.json. `ctl` holds EOF and SCOP/LOP (NOP has
SCOP/LOP 0, R107), `d` the destination, `a` source 1
and `b` source 0 (R125), `imm` IMMV (R82), `t` the branch target (R84). -/
inductive Instr where
  /-- NOP (41_arithmetic.md R160). -/
  | nop (eof : Bool)
  /-- ADD, R-form (R161). -/
  | add (ctl : Control) (d : Dst) (a b : Src)
  /-- DIV, R-form (R163). -/
  | div (ctl : Control) (d : Dst) (a b : Src)
  /-- MUL, R-form (R165). -/
  | mul (ctl : Control) (d : Dst) (a b : Src)
  /-- SQRT, R-form (R167). -/
  | sqrt (ctl : Control) (d : Dst) (a b : Src)
  /-- LOGIC, R-form (R190). -/
  | logic (ctl : Control) (d : Dst) (a b : Src)
  /-- IO, R-form (R192). -/
  | io (ctl : Control) (d : Dst) (a b : Src)
  /-- ADD, I-form (R162). -/
  | addI (ctl : Control) (d : Dst) (imm : Word)
  /-- DIV, I-form (R164). -/
  | divI (ctl : Control) (d : Dst) (imm : Word)
  /-- MUL, I-form (R166). -/
  | mulI (ctl : Control) (d : Dst) (imm : Word)
  /-- SQRT, I-form (R168). -/
  | sqrtI (ctl : Control) (d : Dst) (imm : Word)
  /-- LOGIC, I-form (R191). -/
  | logicI (ctl : Control) (d : Dst) (imm : Word)
  /-- IO, I-form (R193). -/
  | ioI (ctl : Control) (d : Dst) (imm : Word)
  /-- ADD fused with BRANCH.ALWAYS (R212, R161). -/
  | addBranchAlways (ctl : Control) (t : BitVec 8) (a b : Src)
  /-- ADD fused with BRANCH.ZERO (R213, R161). -/
  | addBranchZero (ctl : Control) (t : BitVec 8) (a b : Src)
  /-- ADD fused with BRANCH.NOT_ZERO (R214, R161). -/
  | addBranchNotZero (ctl : Control) (t : BitVec 8) (a b : Src)
  /-- ADD fused with BRANCH.SIGN (R215, R161). -/
  | addBranchSign (ctl : Control) (t : BitVec 8) (a b : Src)
  /-- ADD fused with BRANCH.NOT_SIGN (R216, R161). -/
  | addBranchNotSign (ctl : Control) (t : BitVec 8) (a b : Src)
  /-- ADD fused with BRANCH.ZERO_OR_SIGN (R217, R161). -/
  | addBranchZeroOrSign (ctl : Control) (t : BitVec 8) (a b : Src)
  /-- ADD fused with BRANCH.ZERO_OR_NOT_SIGN (R218, R161). -/
  | addBranchZeroOrNotSign (ctl : Control) (t : BitVec 8) (a b : Src)
  /-- DIV fused with BRANCH.ALWAYS (R212, R163). -/
  | divBranchAlways (ctl : Control) (t : BitVec 8) (a b : Src)
  /-- DIV fused with BRANCH.ZERO (R213, R163). -/
  | divBranchZero (ctl : Control) (t : BitVec 8) (a b : Src)
  /-- DIV fused with BRANCH.NOT_ZERO (R214, R163). -/
  | divBranchNotZero (ctl : Control) (t : BitVec 8) (a b : Src)
  /-- DIV fused with BRANCH.SIGN (R215, R163). -/
  | divBranchSign (ctl : Control) (t : BitVec 8) (a b : Src)
  /-- DIV fused with BRANCH.NOT_SIGN (R216, R163). -/
  | divBranchNotSign (ctl : Control) (t : BitVec 8) (a b : Src)
  /-- DIV fused with BRANCH.ZERO_OR_SIGN (R217, R163). -/
  | divBranchZeroOrSign (ctl : Control) (t : BitVec 8) (a b : Src)
  /-- DIV fused with BRANCH.ZERO_OR_NOT_SIGN (R218, R163). -/
  | divBranchZeroOrNotSign (ctl : Control) (t : BitVec 8) (a b : Src)
  /-- MUL fused with BRANCH.ALWAYS (R212, R165). -/
  | mulBranchAlways (ctl : Control) (t : BitVec 8) (a b : Src)
  /-- MUL fused with BRANCH.ZERO (R213, R165). -/
  | mulBranchZero (ctl : Control) (t : BitVec 8) (a b : Src)
  /-- MUL fused with BRANCH.NOT_ZERO (R214, R165). -/
  | mulBranchNotZero (ctl : Control) (t : BitVec 8) (a b : Src)
  /-- MUL fused with BRANCH.SIGN (R215, R165). -/
  | mulBranchSign (ctl : Control) (t : BitVec 8) (a b : Src)
  /-- MUL fused with BRANCH.NOT_SIGN (R216, R165). -/
  | mulBranchNotSign (ctl : Control) (t : BitVec 8) (a b : Src)
  /-- MUL fused with BRANCH.ZERO_OR_SIGN (R217, R165). -/
  | mulBranchZeroOrSign (ctl : Control) (t : BitVec 8) (a b : Src)
  /-- MUL fused with BRANCH.ZERO_OR_NOT_SIGN (R218, R165). -/
  | mulBranchZeroOrNotSign (ctl : Control) (t : BitVec 8) (a b : Src)
  /-- SQRT fused with BRANCH.ALWAYS (R212, R167). -/
  | sqrtBranchAlways (ctl : Control) (t : BitVec 8) (a b : Src)
  /-- SQRT fused with BRANCH.ZERO (R213, R167). -/
  | sqrtBranchZero (ctl : Control) (t : BitVec 8) (a b : Src)
  /-- SQRT fused with BRANCH.NOT_ZERO (R214, R167). -/
  | sqrtBranchNotZero (ctl : Control) (t : BitVec 8) (a b : Src)
  /-- SQRT fused with BRANCH.SIGN (R215, R167). -/
  | sqrtBranchSign (ctl : Control) (t : BitVec 8) (a b : Src)
  /-- SQRT fused with BRANCH.NOT_SIGN (R216, R167). -/
  | sqrtBranchNotSign (ctl : Control) (t : BitVec 8) (a b : Src)
  /-- SQRT fused with BRANCH.ZERO_OR_SIGN (R217, R167). -/
  | sqrtBranchZeroOrSign (ctl : Control) (t : BitVec 8) (a b : Src)
  /-- SQRT fused with BRANCH.ZERO_OR_NOT_SIGN (R218, R167). -/
  | sqrtBranchZeroOrNotSign (ctl : Control) (t : BitVec 8) (a b : Src)
  /-- LOGIC fused with BRANCH.ALWAYS (R212, R190). -/
  | logicBranchAlways (ctl : Control) (t : BitVec 8) (a b : Src)
  /-- LOGIC fused with BRANCH.ZERO (R213, R190). -/
  | logicBranchZero (ctl : Control) (t : BitVec 8) (a b : Src)
  /-- LOGIC fused with BRANCH.NOT_ZERO (R214, R190). -/
  | logicBranchNotZero (ctl : Control) (t : BitVec 8) (a b : Src)
  /-- LOGIC fused with BRANCH.SIGN (R215, R190). -/
  | logicBranchSign (ctl : Control) (t : BitVec 8) (a b : Src)
  /-- LOGIC fused with BRANCH.NOT_SIGN (R216, R190). -/
  | logicBranchNotSign (ctl : Control) (t : BitVec 8) (a b : Src)
  /-- LOGIC fused with BRANCH.ZERO_OR_SIGN (R217, R190). -/
  | logicBranchZeroOrSign (ctl : Control) (t : BitVec 8) (a b : Src)
  /-- LOGIC fused with BRANCH.ZERO_OR_NOT_SIGN (R218, R190). -/
  | logicBranchZeroOrNotSign (ctl : Control) (t : BitVec 8) (a b : Src)
  /-- RSVR2, the reserved OPCODE 111 (R100, R194). It has no operands: the constructor keeps the word it was read from. -/
  | rsvr2 (word : Insn)
deriving DecidableEq, Repr

end Sys2Proof
end

