-- ==== Sys2Proof/Config.lean ====
section
/-! DEFINITION. The named parameters of 00_scope.md R6 and the free values. What is plain data is a record `Config`, which a
launch fixes and State carries (log 32); what is a function or a draw is an opaque constant: nothing in Lean can evaluate it. -/

namespace Sys2Proof

/-- How MUL, DIV or SQRT is parametrised (00_scope.md R6 rows `MUL_FN`, `DIV_FN`, `SQRT_FN`; 41_arithmetic.md R171 to R173):
the spec's default function, or a function the launch supplies, of which nothing is known but that it is total. -/
inductive FnChoice where
  | specDefault
  | supplied
deriving DecidableEq, Repr

/-- Whether `LOGIC_FN` is supplied (00_scope.md R6, 42_logic_io.md R190). -/
inductive LogicModel where
  | absent
  | supplied
deriving DecidableEq, Repr

/-- Whether `SCOP_TABLE`, the meaning of SCOP/LOP other than 0, is supplied (00_scope.md R6, 30_encoding.md R101). -/
inductive ScopTable where
  | absent
  | supplied
deriving DecidableEq, Repr

/-- `IO_MODEL` (00_scope.md R6, 42_logic_io.md R192): refuse an IO instruction, or record it as an event and let any value
arrive ("opaque"). -/
inductive IoModel where
  | refuse
  | opaqueEvents
deriving DecidableEq, Repr

/-- `EOF_MODEL` (00_scope.md R6, 30_encoding.md R103): the run ends after the instruction, or the word is refused. -/
inductive EofModel where
  | endsRun
  | refuse
deriving DecidableEq, Repr

/-- `ZERO_RULE` (43_branch.md R211): the default, the other candidate the rule names, or any rule of the result that the launch
supplies. -/
inductive ZeroRule where
  | allLanes
  | laneX
  | supplied
deriving DecidableEq, Repr

/-- `SIGN_RULE` (43_branch.md R211): the default (lane x), the other candidates the rule names, or any rule of the result that the
launch supplies. -/
inductive SignRule where
  | laneX
  | anyLane
  | everyLane
  | supplied
deriving DecidableEq, Repr

/-- `IMAGE_BYTE_ORDER` (20_memory.md R54). -/
inductive ByteOrder where
  | msbFirst
  | lsbFirst
deriving DecidableEq, Repr

/-- The parameters of 00_scope.md R6 that are plain data. `width` is `W` (log 3) and `noHazards` is `NO_HAZARDS` (log 21). `FO` is
state (10_state.md R31); `INSN_BITS`, `NCHAN` and `IDX_BITS`, which R6 fixes, are types; `REG_INIT` is the draw of R23. -/
structure Config where
  width : Nat
  regCount : Nat
  imemSize : Nat
  entryPc : Nat
  mulFn : FnChoice
  divFn : FnChoice
  sqrtFn : FnChoice
  logicFn : LogicModel
  scopTable : ScopTable
  ioModel : IoModel
  zeroRule : ZeroRule
  signRule : SignRule
  eofModel : EofModel
  branchModeBit47Ignored : Bool
  imageByteOrder : ByteOrder
  noHazards : Bool
deriving DecidableEq, Repr

/-- The defaults of 00_scope.md R6, with nothing changed: LOGIC, IO and SCOP/LOP other than 0 are refused. -/
def Config.ofSpec : Config where
  width := 32
  regCount := 256
  imemSize := 256
  entryPc := 0
  mulFn := .specDefault
  divFn := .specDefault
  sqrtFn := .specDefault
  logicFn := .absent
  scopTable := .absent
  ioModel := .refuse
  zeroRule := .allLanes
  signRule := .laneX
  eofModel := .endsRun
  branchModeBit47Ignored := false
  imageByteOrder := .msbFirst
  noHazards := true

/-- The configuration this model resets to: the defaults of R6 with `LOGIC_FN` supplied (as the uninterpreted
`Config.logicFunction`) and `IO_MODEL` = opaque, the two choices of R6 under which LOGIC and IO have an effect.
DESIGN CHOICE, logs 8 and 9. -/
def Config.standard : Config :=
  { Config.ofSpec with logicFn := .supplied, ioModel := .opaqueEvents }

/-- Where in an instruction's step a draw is made (00_scope.md R9 `draw_W()`): reading an unwritten channel for source 1 or
source 0 (10_state.md R23), a quotient by zero (41_arithmetic.md R163), a value an IO instruction brings in (42_logic_io.md R192). -/
inductive DrawSite where
  | source1
  | source0
  | quotient
  | input
deriving DecidableEq, Repr

/-- THE FREE VALUE `draw_W()` of 00_scope.md R9: the value of W bits drawn by the instruction of serial number `tick`, at one place of its
step, for one lane. No body: nothing constrains it (log 2). -/
opaque Config.drawn (W tick : Nat) (site : DrawSite) (lane : Chan) : BitVec W

/-- What a literal is under a channel width other than 32: "the treatment of IMMV is undefined by this spec" (decision D1,
30_encoding.md R82), so a free value of W bits for each literal (DESIGN CHOICE, log 3). -/
opaque Config.literalFunction (W : Nat) (imm : Word) : BitVec W

/-- `LOGIC_FN(lop, a, b)` of 42_logic_io.md R190, uninterpreted (log 8). -/
opaque Config.logicFunction {W : Nat} (lop : BitVec 4) (a b : BitVec W) : BitVec W

/-- What a supplied `SCOP_TABLE` makes of an operation other than LOGIC under a selector SCOP/LOP other than 0, in one lane:
uninterpreted (30_encoding.md R101, log 18). LOGIC takes its selector through `LOGIC_FN` (42_logic_io.md R190). -/
opaque Config.scopFunction {W : Nat} (op : AluOp) (scop : BitVec 4) (a b : BitVec W) : BitVec W

/-- A supplied `ZERO_RULE` (43_branch.md R211), uninterpreted (log 12). -/
opaque Config.zeroFunction {W : Nat} (r : Vec W) : Bool

/-- A supplied `SIGN_RULE` (43_branch.md R211), uninterpreted (log 12). -/
opaque Config.signFunction {W : Nat} (r : Vec W) : Bool

/-- A supplied `MUL_FN` (41_arithmetic.md R171: "only that it is a total function of (a, b)"), uninterpreted (log 11). -/
opaque Config.mulFunction {W : Nat} (a b : BitVec W) : BitVec W

/-- A supplied `DIV_FN` (41_arithmetic.md R172: a total function of (a, b) for b ≠ 0), uninterpreted (log 11). -/
opaque Config.divFunction {W : Nat} (a b : BitVec W) : BitVec W

/-- A supplied `SQRT_FN` (41_arithmetic.md R173: a total function of (a, b)), uninterpreted (log 11). -/
opaque Config.sqrtFunction {W : Nat} (a b : BitVec W) : BitVec W

end Sys2Proof
end

