-- ==== Sys2Proof/WellFormed.lean ====
section
/-! DEFINITION. Which terms of `Instr` stand for a word (30_encoding.md R109). Every operand type is exact (an 8-bit index, a
channel per lane, a 32-bit literal, a branch with no write enable and no displaced destination), so every term of every
constructor but `rsvr2` is well formed; `rsvr2` keeps a word, which must be one that R109 classes as RSVR2. Two fields are admitted
or not by the configuration: SCOP/LOP (R101) and EOF (R103). -/

namespace Sys2Proof

/-- The word's OPCODE is 111 (30_encoding.md R100). -/
def Instr.reservedOpcodeField (w : Insn) : Bool := w.extractLsb' 48 3 == 7

/-- The word passes the check that R109 makes of every word in every configuration: bits 53:51 are 0 (R102). -/
def Instr.reservedHeader (w : Insn) : Bool := w.extractLsb' 51 3 == 0

/-- EOF, bit 58 (R103). -/
def Instr.eof : Instr → Bool
  | .nop eof => eof
  | .add ctl _ _ _ => ctl.eof
  | .div ctl _ _ _ => ctl.eof
  | .mul ctl _ _ _ => ctl.eof
  | .sqrt ctl _ _ _ => ctl.eof
  | .logic ctl _ _ _ => ctl.eof
  | .io ctl _ _ _ => ctl.eof
  | .addI ctl _ _ => ctl.eof
  | .divI ctl _ _ => ctl.eof
  | .mulI ctl _ _ => ctl.eof
  | .sqrtI ctl _ _ => ctl.eof
  | .logicI ctl _ _ => ctl.eof
  | .ioI ctl _ _ => ctl.eof
  | .addBranchAlways ctl _ _ _ => ctl.eof
  | .addBranchZero ctl _ _ _ => ctl.eof
  | .addBranchNotZero ctl _ _ _ => ctl.eof
  | .addBranchSign ctl _ _ _ => ctl.eof
  | .addBranchNotSign ctl _ _ _ => ctl.eof
  | .addBranchZeroOrSign ctl _ _ _ => ctl.eof
  | .addBranchZeroOrNotSign ctl _ _ _ => ctl.eof
  | .divBranchAlways ctl _ _ _ => ctl.eof
  | .divBranchZero ctl _ _ _ => ctl.eof
  | .divBranchNotZero ctl _ _ _ => ctl.eof
  | .divBranchSign ctl _ _ _ => ctl.eof
  | .divBranchNotSign ctl _ _ _ => ctl.eof
  | .divBranchZeroOrSign ctl _ _ _ => ctl.eof
  | .divBranchZeroOrNotSign ctl _ _ _ => ctl.eof
  | .mulBranchAlways ctl _ _ _ => ctl.eof
  | .mulBranchZero ctl _ _ _ => ctl.eof
  | .mulBranchNotZero ctl _ _ _ => ctl.eof
  | .mulBranchSign ctl _ _ _ => ctl.eof
  | .mulBranchNotSign ctl _ _ _ => ctl.eof
  | .mulBranchZeroOrSign ctl _ _ _ => ctl.eof
  | .mulBranchZeroOrNotSign ctl _ _ _ => ctl.eof
  | .sqrtBranchAlways ctl _ _ _ => ctl.eof
  | .sqrtBranchZero ctl _ _ _ => ctl.eof
  | .sqrtBranchNotZero ctl _ _ _ => ctl.eof
  | .sqrtBranchSign ctl _ _ _ => ctl.eof
  | .sqrtBranchNotSign ctl _ _ _ => ctl.eof
  | .sqrtBranchZeroOrSign ctl _ _ _ => ctl.eof
  | .sqrtBranchZeroOrNotSign ctl _ _ _ => ctl.eof
  | .logicBranchAlways ctl _ _ _ => ctl.eof
  | .logicBranchZero ctl _ _ _ => ctl.eof
  | .logicBranchNotZero ctl _ _ _ => ctl.eof
  | .logicBranchSign ctl _ _ _ => ctl.eof
  | .logicBranchNotSign ctl _ _ _ => ctl.eof
  | .logicBranchZeroOrSign ctl _ _ _ => ctl.eof
  | .logicBranchZeroOrNotSign ctl _ _ _ => ctl.eof
  | .rsvr2 w => w.getLsbD 58

/-- SCOP/LOP, bits 62:59 (R101); NOP has it 0 (R107). -/
def Instr.scop : Instr → BitVec 4
  | .nop _ => 0
  | .add ctl _ _ _ => ctl.scop
  | .div ctl _ _ _ => ctl.scop
  | .mul ctl _ _ _ => ctl.scop
  | .sqrt ctl _ _ _ => ctl.scop
  | .logic ctl _ _ _ => ctl.scop
  | .io ctl _ _ _ => ctl.scop
  | .addI ctl _ _ => ctl.scop
  | .divI ctl _ _ => ctl.scop
  | .mulI ctl _ _ => ctl.scop
  | .sqrtI ctl _ _ => ctl.scop
  | .logicI ctl _ _ => ctl.scop
  | .ioI ctl _ _ => ctl.scop
  | .addBranchAlways ctl _ _ _ => ctl.scop
  | .addBranchZero ctl _ _ _ => ctl.scop
  | .addBranchNotZero ctl _ _ _ => ctl.scop
  | .addBranchSign ctl _ _ _ => ctl.scop
  | .addBranchNotSign ctl _ _ _ => ctl.scop
  | .addBranchZeroOrSign ctl _ _ _ => ctl.scop
  | .addBranchZeroOrNotSign ctl _ _ _ => ctl.scop
  | .divBranchAlways ctl _ _ _ => ctl.scop
  | .divBranchZero ctl _ _ _ => ctl.scop
  | .divBranchNotZero ctl _ _ _ => ctl.scop
  | .divBranchSign ctl _ _ _ => ctl.scop
  | .divBranchNotSign ctl _ _ _ => ctl.scop
  | .divBranchZeroOrSign ctl _ _ _ => ctl.scop
  | .divBranchZeroOrNotSign ctl _ _ _ => ctl.scop
  | .mulBranchAlways ctl _ _ _ => ctl.scop
  | .mulBranchZero ctl _ _ _ => ctl.scop
  | .mulBranchNotZero ctl _ _ _ => ctl.scop
  | .mulBranchSign ctl _ _ _ => ctl.scop
  | .mulBranchNotSign ctl _ _ _ => ctl.scop
  | .mulBranchZeroOrSign ctl _ _ _ => ctl.scop
  | .mulBranchZeroOrNotSign ctl _ _ _ => ctl.scop
  | .sqrtBranchAlways ctl _ _ _ => ctl.scop
  | .sqrtBranchZero ctl _ _ _ => ctl.scop
  | .sqrtBranchNotZero ctl _ _ _ => ctl.scop
  | .sqrtBranchSign ctl _ _ _ => ctl.scop
  | .sqrtBranchNotSign ctl _ _ _ => ctl.scop
  | .sqrtBranchZeroOrSign ctl _ _ _ => ctl.scop
  | .sqrtBranchZeroOrNotSign ctl _ _ _ => ctl.scop
  | .logicBranchAlways ctl _ _ _ => ctl.scop
  | .logicBranchZero ctl _ _ _ => ctl.scop
  | .logicBranchNotZero ctl _ _ _ => ctl.scop
  | .logicBranchSign ctl _ _ _ => ctl.scop
  | .logicBranchNotSign ctl _ _ _ => ctl.scop
  | .logicBranchZeroOrSign ctl _ _ _ => ctl.scop
  | .logicBranchZeroOrNotSign ctl _ _ _ => ctl.scop
  | .rsvr2 w => w.extractLsb' 59 4

/-- The configuration admits the instruction's SCOP/LOP (R101) and its EOF (R103). -/
def Instr.admittedBy (cfg : Config) (i : Instr) : Bool :=
  (cfg.scopTable == .supplied || i.scop == 0) && (cfg.eofModel == .endsRun || !i.eof)

/-- A term that stands for a word of the instruction set. -/
def Instr.wellFormed : Instr → Bool
  | .rsvr2 w => Instr.reservedOpcodeField w && Instr.reservedHeader w
  | .nop _ => true
  | .add _ _ _ _ => true
  | .div _ _ _ _ => true
  | .mul _ _ _ _ => true
  | .sqrt _ _ _ _ => true
  | .logic _ _ _ _ => true
  | .io _ _ _ _ => true
  | .addI _ _ _ => true
  | .divI _ _ _ => true
  | .mulI _ _ _ => true
  | .sqrtI _ _ _ => true
  | .logicI _ _ _ => true
  | .ioI _ _ _ => true
  | .addBranchAlways _ _ _ _ | .addBranchZero _ _ _ _ | .addBranchNotZero _ _ _ _ | .addBranchSign _ _ _ _ | .addBranchNotSign _ _ _ _ | .addBranchZeroOrSign _ _ _ _ | .addBranchZeroOrNotSign _ _ _ _ => true
  | .divBranchAlways _ _ _ _ | .divBranchZero _ _ _ _ | .divBranchNotZero _ _ _ _ | .divBranchSign _ _ _ _ | .divBranchNotSign _ _ _ _ | .divBranchZeroOrSign _ _ _ _ | .divBranchZeroOrNotSign _ _ _ _ => true
  | .mulBranchAlways _ _ _ _ | .mulBranchZero _ _ _ _ | .mulBranchNotZero _ _ _ _ | .mulBranchSign _ _ _ _ | .mulBranchNotSign _ _ _ _ | .mulBranchZeroOrSign _ _ _ _ | .mulBranchZeroOrNotSign _ _ _ _ => true
  | .sqrtBranchAlways _ _ _ _ | .sqrtBranchZero _ _ _ _ | .sqrtBranchNotZero _ _ _ _ | .sqrtBranchSign _ _ _ _ | .sqrtBranchNotSign _ _ _ _ | .sqrtBranchZeroOrSign _ _ _ _ | .sqrtBranchZeroOrNotSign _ _ _ _ => true
  | .logicBranchAlways _ _ _ _ | .logicBranchZero _ _ _ _ | .logicBranchNotZero _ _ _ _ | .logicBranchSign _ _ _ _ | .logicBranchNotSign _ _ _ _ | .logicBranchZeroOrSign _ _ _ _ | .logicBranchZeroOrNotSign _ _ _ _ => true

end Sys2Proof
end

