-- ==== Sys2Proof/Decode.lean ====
section
/-! DEFINITION. Words and instructions (30_encoding.md): the field layout of R72, the decoder of R109, total on 64-bit words and
refusing by name; then the encoder, the assembly of a word that R72 and R122 give; the opcode table; and the host's
`decodeTableWord`. -/

namespace Sys2Proof

/-- The decoder's refusals, by the names of 60_exceptions.md R243. (ReservedOpcode is not here: a word with OPCODE 111 decodes to
the constructor `rsvr2`, whose meaning refuses under that name, log 17.) -/
inductive DecodeRefusal where
  /-- R102: bits 53:51 are not 0. -/
  | reservedBits53_51
  /-- R101: SCOP/LOP is not 0 and no SCOP_TABLE is supplied. -/
  | scopLopNotShown
  /-- R103: EOF = 1 and `EOF_MODEL` = refuse. -/
  | eofNotShown
  /-- R105: BBIT = 0 and BOP is not 0. -/
  | bopWithoutBbit
  /-- R105: BBIT = 1 and BOP = 111. -/
  | branchTypeNotShown
  /-- R107: OPCODE = 000 and a bit other than EOF is set. -/
  | nopNotCanonical
  /-- R105: BBIT = 1 and IMM = 1. -/
  | branchImmediateNotShown
  /-- R106: IMM = 1 and MODE is neither 100 nor 101. -/
  | immModeNotShown
  /-- R106: IMM = 1 and SIGN1X = 1 or SIGN1Y = 1. -/
  | immSignNotShown
  /-- R104: a swizzle code 11. -/
  | swizzleCodeNotShown
  /-- R105: BBIT = 1 and OPCODE = IO. -/
  | branchOpcodeNotShown
  /-- R105: BBIT = 1 and a write enable is set. -/
  | branchWithWriteNotShown
  /-- R105, R92: BBIT = 1, MODE bit 47 = 1, and `BRANCH_MODE_BIT47_IGNORED` is false. -/
  | branchDstDisplaced
deriving DecidableEq, Repr

/-! ## The fields of a word (R72) -/

def fieldImm (w : Insn) : Bool := w.getLsbD 63
def fieldScop (w : Insn) : BitVec 4 := w.extractLsb' 59 4
def fieldEof (w : Insn) : Bool := w.getLsbD 58
def fieldBbit (w : Insn) : Bool := w.getLsbD 57
def fieldBop (w : Insn) : BitVec 3 := w.extractLsb' 54 3
def fieldReserved (w : Insn) : BitVec 3 := w.extractLsb' 51 3
def fieldOpcode (w : Insn) : BitVec 3 := w.extractLsb' 48 3
def fieldMode (w : Insn) : BitVec 3 := w.extractLsb' 45 3
def fieldWe (w : Insn) : Vec3 Bool := ⟨w.getLsbD 44, w.getLsbD 43, w.getLsbD 42⟩
def fieldDstIndex (w : Insn) : BitVec 8 := w.extractLsb' 34 8
def fieldSign1 (w : Insn) : Vec3 Bool := ⟨w.getLsbD 33, w.getLsbD 32, w.getLsbD 31⟩
def fieldSwz1 (w : Insn) : Vec3 (BitVec 2) := ⟨w.extractLsb' 29 2, w.extractLsb' 27 2, w.extractLsb' 25 2⟩
def fieldSrc1Addr (w : Insn) : BitVec 8 := w.extractLsb' 17 8
def fieldSign0 (w : Insn) : Vec3 Bool := ⟨w.getLsbD 16, w.getLsbD 15, w.getLsbD 14⟩
def fieldSwz0 (w : Insn) : Vec3 (BitVec 2) := ⟨w.extractLsb' 12 2, w.extractLsb' 10 2, w.extractLsb' 8 2⟩
def fieldSrc0Addr (w : Insn) : BitVec 8 := w.extractLsb' 0 8
def fieldImmv (w : Insn) : Word := w.extractLsb' 0 32

/-- EOF and SCOP/LOP together. -/
def fieldControl (w : Insn) : Control := ⟨fieldEof w, fieldScop w⟩

/-! ## Field values -/

/-- The classes of OPCODE values (R76, Table 3). -/
inductive OpcodeClass where
  | nop
  | alu (op : AluOp)
  | io
  | rsvr2
deriving DecidableEq, Repr

/-- Table 3 (R76). -/
def opcodeClass (c : BitVec 3) : OpcodeClass :=
  match c.toNat with
  | 0 => .nop
  | 1 => .alu .add
  | 2 => .alu .div
  | 3 => .alu .mul
  | 4 => .alu .sqrt
  | 5 => .alu .logic
  | 6 => .io
  | _ => .rsvr2

/-- Table 18 (R81); 111 is not listed. -/
def branchTypeOf (c : BitVec 3) : Option BranchType :=
  match c.toNat with
  | 0 => some .always
  | 1 => some .zero
  | 2 => some .notZero
  | 3 => some .sign
  | 4 => some .notSign
  | 5 => some .zeroOrSign
  | 6 => some .zeroOrNotSign
  | _ => none

/-- The per-lane reading of Table 5 (R79): the channel that the code selects in a lane; 11 is in no row (R104). -/
def swizzleChan (lane : Chan) (c : BitVec 2) : Option Chan :=
  match lane, c.toNat with
  | .x, 0 => some .x
  | .x, 1 => some .z
  | .x, 2 => some .y
  | .y, 0 => some .y
  | .y, 1 => some .z
  | .y, 2 => some .x
  | .z, 0 => some .z
  | .z, 1 => some .y
  | .z, 2 => some .x
  | _, _ => none

/-- The three channels that a swizzle field triple selects, if no code is 11 (R79, R104). -/
def swizzleOf (c : Vec3 (BitVec 2)) : Option (Vec3 Chan) :=
  match swizzleChan .x c.x, swizzleChan .y c.y, swizzleChan .z c.z with
  | some sx, some sy, some sz => some ⟨sx, sy, sz⟩
  | _, _, _ => none

/-! ## Operands -/

/-- Source 1 of an R-form word; MODE bit 46 displaces it (R90, R92). -/
def decodeSrc1 (w : Insn) : Option Src :=
  (swizzleOf (fieldSwz1 w)).map fun sel => ⟨fieldSrc1Addr w, w.getLsbD 46, fieldSign1 w, sel⟩

/-- Source 0 of an R-form word; MODE bit 45 displaces it (R90, R92). -/
def decodeSrc0 (w : Insn) : Option Src :=
  (swizzleOf (fieldSwz0 w)).map fun sel => ⟨fieldSrc0Addr w, w.getLsbD 45, fieldSign0 w, sel⟩

/-- The destination of an R-form word; MODE bit 47 displaces it (R90). -/
def decodeDstRForm (w : Insn) : Dst := ⟨fieldDstIndex w, w.getLsbD 47, fieldWe w⟩

/-- The destination of an I-form word; MODE 101 displaces it, 100 does not (R91). -/
def decodeDstIForm (w : Insn) : Dst := ⟨fieldDstIndex w, fieldMode w == 5, fieldWe w⟩

/-! ## Operations to constructors -/

/-- The R-form of an operation (R110). -/
def Instr.ofRForm (op : AluOp) (ctl : Control) (d : Dst) (a b : Src) : Instr :=
  match op with
  | .add => .add ctl d a b
  | .div => .div ctl d a b
  | .mul => .mul ctl d a b
  | .sqrt => .sqrt ctl d a b
  | .logic => .logic ctl d a b

/-- The I-form of an operation (R110). -/
def Instr.ofIForm (op : AluOp) (ctl : Control) (d : Dst) (imm : Word) : Instr :=
  match op with
  | .add => .addI ctl d imm
  | .div => .divI ctl d imm
  | .mul => .mulI ctl d imm
  | .sqrt => .sqrtI ctl d imm
  | .logic => .logicI ctl d imm

/-- A branch fused with an operation (R110). -/
def Instr.ofBranch (op : AluOp) (ty : BranchType) (ctl : Control) (t : BitVec 8) (a b : Src) : Instr :=
  match op, ty with
  | .add, .always => .addBranchAlways ctl t a b
  | .add, .zero => .addBranchZero ctl t a b
  | .add, .notZero => .addBranchNotZero ctl t a b
  | .add, .sign => .addBranchSign ctl t a b
  | .add, .notSign => .addBranchNotSign ctl t a b
  | .add, .zeroOrSign => .addBranchZeroOrSign ctl t a b
  | .add, .zeroOrNotSign => .addBranchZeroOrNotSign ctl t a b
  | .div, .always => .divBranchAlways ctl t a b
  | .div, .zero => .divBranchZero ctl t a b
  | .div, .notZero => .divBranchNotZero ctl t a b
  | .div, .sign => .divBranchSign ctl t a b
  | .div, .notSign => .divBranchNotSign ctl t a b
  | .div, .zeroOrSign => .divBranchZeroOrSign ctl t a b
  | .div, .zeroOrNotSign => .divBranchZeroOrNotSign ctl t a b
  | .mul, .always => .mulBranchAlways ctl t a b
  | .mul, .zero => .mulBranchZero ctl t a b
  | .mul, .notZero => .mulBranchNotZero ctl t a b
  | .mul, .sign => .mulBranchSign ctl t a b
  | .mul, .notSign => .mulBranchNotSign ctl t a b
  | .mul, .zeroOrSign => .mulBranchZeroOrSign ctl t a b
  | .mul, .zeroOrNotSign => .mulBranchZeroOrNotSign ctl t a b
  | .sqrt, .always => .sqrtBranchAlways ctl t a b
  | .sqrt, .zero => .sqrtBranchZero ctl t a b
  | .sqrt, .notZero => .sqrtBranchNotZero ctl t a b
  | .sqrt, .sign => .sqrtBranchSign ctl t a b
  | .sqrt, .notSign => .sqrtBranchNotSign ctl t a b
  | .sqrt, .zeroOrSign => .sqrtBranchZeroOrSign ctl t a b
  | .sqrt, .zeroOrNotSign => .sqrtBranchZeroOrNotSign ctl t a b
  | .logic, .always => .logicBranchAlways ctl t a b
  | .logic, .zero => .logicBranchZero ctl t a b
  | .logic, .notZero => .logicBranchNotZero ctl t a b
  | .logic, .sign => .logicBranchSign ctl t a b
  | .logic, .notSign => .logicBranchNotSign ctl t a b
  | .logic, .zeroOrSign => .logicBranchZeroOrSign ctl t a b
  | .logic, .zeroOrNotSign => .logicBranchZeroOrNotSign ctl t a b

/-! ## The decoder (R109) -/

/-- The two checks of R109 on BBIT and BOP (R105), which stand before the OPCODE is looked at. -/
def branchFieldRefusal (w : Insn) : Option DecodeRefusal :=
  if !fieldBbit w && fieldBop w != 0 then some .bopWithoutBbit
  else if fieldBbit w && fieldBop w == 7 then some .branchTypeNotShown
  else none

/-- The checks of R109 on a word with IMM = 1 (R105, R106). -/
def immFieldRefusal (w : Insn) : Option DecodeRefusal :=
  if fieldBbit w then some .branchImmediateNotShown
  else if !(fieldMode w == 4 || fieldMode w == 5) then some .immModeNotShown
  else if (fieldSign1 w).x || (fieldSign1 w).y then some .immSignNotShown
  else none

/-- The checks of R109 on a branch of an operation (R105, R92, R222). -/
def branchWordRefusal (cfg : Config) (w : Insn) : Option DecodeRefusal :=
  if (fieldWe w).x || (fieldWe w).y || (fieldWe w).z then some .branchWithWriteNotShown
  else if w.getLsbD 47 && !cfg.branchModeBit47Ignored then some .branchDstDisplaced
  else none

/-- OPCODE = 000: only the all-zero word, EOF (bit 58) apart, is a NOP (R94, R107). -/
def decodeNop (w : Insn) : Except DecodeRefusal Instr :=
  if w &&& 0xFBFFFFFFFFFFFFFF != 0 then .error .nopNotCanonical else .ok (.nop (fieldEof w))

/-- The part of R109 below the OPCODE check, for ADD, DIV, MUL, SQRT and LOGIC. -/
def decodeAlu (cfg : Config) (op : AluOp) (w : Insn) : Except DecodeRefusal Instr :=
  if fieldImm w then
    match immFieldRefusal w with
    | some r => .error r
    | none => .ok (.ofIForm op (fieldControl w) (decodeDstIForm w) (fieldImmv w))
  else
    match decodeSrc1 w, decodeSrc0 w with
    | some a, some b =>
      if fieldBbit w then
        match branchWordRefusal cfg w, branchTypeOf (fieldBop w) with
        | some r, _ => .error r
        | none, some ty => .ok (.ofBranch op ty (fieldControl w) (fieldDstIndex w) a b)
        | none, none => .error .branchTypeNotShown
      else .ok (.ofRForm op (fieldControl w) (decodeDstRForm w) a b)
    | _, _ => .error .swizzleCodeNotShown

/-- The part of R109 below the OPCODE check, for IO. -/
def decodeIo (w : Insn) : Except DecodeRefusal Instr :=
  if fieldImm w then
    match immFieldRefusal w with
    | some r => .error r
    | none => .ok (.ioI (fieldControl w) (decodeDstIForm w) (fieldImmv w))
  else
    match decodeSrc1 w, decodeSrc0 w with
    | some a, some b =>
      if fieldBbit w then .error .branchOpcodeNotShown
      else .ok (.io (fieldControl w) (decodeDstRForm w) a b)
    | _, _ => .error .swizzleCodeNotShown

/-- The decoder of R109, total on 64-bit words: the checks in the rule's order, the first that fires naming the reason
(60_exceptions.md R242). -/
def decode (cfg : Config) (w : Insn) : Except DecodeRefusal Instr :=
  if fieldReserved w != 0 then .error .reservedBits53_51
  else if fieldScop w != 0 && cfg.scopTable == .absent then .error .scopLopNotShown
  else if fieldEof w && cfg.eofModel == .refuse then .error .eofNotShown
  else
    match opcodeClass (fieldOpcode w), branchFieldRefusal w with
    | .rsvr2, _ => .ok (.rsvr2 w)
    | _, some r => .error r
    | .nop, none => decodeNop w
    | .alu op, none => decodeAlu cfg op w
    | .io, none => decodeIo w

/-! ## Bytes of a program image (20_memory.md R54) -/

/-- A word from its eight bytes, the most significant first. -/
def wordOfBytesMsb (b : List Byte) : Insn := b.foldl (fun w x => (w <<< 8) ||| x.setWidth 64) 0

/-- A word from its eight bytes under IMAGE_BYTE_ORDER. -/
def wordOfBytes (order : ByteOrder) (b : List Byte) : Insn :=
  match order with
  | .msbFirst => wordOfBytesMsb b
  | .lsbFirst => wordOfBytesMsb b.reverse

/-- The eight bytes of a word as an image holds them under IMAGE_BYTE_ORDER. -/
def bytesOfWord (order : ByteOrder) (w : Insn) : List Byte :=
  let msb : List Byte := [56, 48, 40, 32, 24, 16, 8, 0].map fun i => w.extractLsb' i 8
  match order with
  | .msbFirst => msb
  | .lsbFirst => msb.reverse

/-- The words of a program image; `none` where its length is no multiple of eight bytes. -/
def wordsOfImage (order : ByteOrder) : List Byte → Option (List Insn)
  | [] => some []
  | b0 :: b1 :: b2 :: b3 :: b4 :: b5 :: b6 :: b7 :: rest =>
    (wordsOfImage order rest).map (wordOfBytes order [b0, b1, b2, b3, b4, b5, b6, b7] :: ·)
  | _ => none

/-- The first instruction of a program image: total on any bytes; `none` where there are fewer than eight. -/
def decodeBytes (cfg : Config) (bytes : List Byte) : Option (Except DecodeRefusal Instr) :=
  if bytes.length < 8 then none else some (decode cfg (wordOfBytes cfg.imageByteOrder (bytes.take 8)))

/-! ## The encoder (R72, R122) -/

/-- The assembly of a word from its fields, in the order R72 gives, most significant first. -/
def packWord (imm : BitVec 1) (scop : BitVec 4) (eof bbit : BitVec 1) (bop rsvd opcode mode we : BitVec 3)
    (dst : BitVec 8) (sign1xy : BitVec 2) (low : BitVec 32) : Insn :=
  imm ++ scop ++ eof ++ bbit ++ bop ++ rsvd ++ opcode ++ mode ++ we ++ dst ++ sign1xy ++ low

/-- The low 32 bits of an R-form word (R72): SIGN1Z down to SRC0ADDR. -/
def packSources (sign1z : BitVec 1) (swz1 : BitVec 6) (addr1 : BitVec 8) (sign0 : BitVec 3) (swz0 : BitVec 6)
    (addr0 : BitVec 8) : BitVec 32 :=
  sign1z ++ swz1 ++ addr1 ++ sign0 ++ swz0 ++ addr0

/-- Three one-bit fields x, y, z, the x field most significant. -/
def packBools (v : Vec3 Bool) : BitVec 3 := BitVec.ofBool v.x ++ BitVec.ofBool v.y ++ BitVec.ofBool v.z

/-- The code of Table 5 by which a lane takes a channel (R79). -/
def swizzleCode (lane sel : Chan) : BitVec 2 :=
  match lane, sel with
  | .x, .x => 0
  | .x, .z => 1
  | .x, .y => 2
  | .y, .y => 0
  | .y, .z => 1
  | .y, .x => 2
  | .z, .z => 0
  | .z, .y => 1
  | .z, .x => 2

/-- SWZZ*X, SWZZ*Y, SWZZ*Z of a selection (R78, R79). -/
def packSwizzle (sel : Vec3 Chan) : BitVec 6 :=
  swizzleCode .x sel.x ++ swizzleCode .y sel.y ++ swizzleCode .z sel.z

/-- The low 32 bits of a word with two register sources (R72). -/
def encodeSources (a b : Src) : BitVec 32 :=
  packSources (BitVec.ofBool a.neg.z) (packSwizzle a.sel) a.addr (packBools b.neg) (packSwizzle b.sel) b.addr

/-- SIGN1X and SIGN1Y (bits 33:32). -/
def encodeSign1XY (a : Src) : BitVec 2 := BitVec.ofBool a.neg.x ++ BitVec.ofBool a.neg.y

/-- An R-form word (R75, R90). -/
def encodeRForm (opcode : BitVec 3) (ctl : Control) (d : Dst) (a b : Src) : Insn :=
  packWord 0 ctl.scop (BitVec.ofBool ctl.eof) 0 0 0 opcode (packBools ⟨d.displaced, a.displaced, b.displaced⟩)
    (packBools d.we) d.index (encodeSign1XY a) (encodeSources a b)

/-- An I-form word (R75, R91). -/
def encodeIForm (opcode : BitVec 3) (ctl : Control) (d : Dst) (imm : Word) : Insn :=
  packWord 1 ctl.scop (BitVec.ofBool ctl.eof) 0 0 0 opcode (if d.displaced then 5 else 4) (packBools d.we) d.index 0 imm

/-- A branch word (R81, R84, R92). -/
def encodeBranch (opcode bop : BitVec 3) (ctl : Control) (t : BitVec 8) (a b : Src) : Insn :=
  packWord 0 ctl.scop (BitVec.ofBool ctl.eof) 1 bop 0 opcode (packBools ⟨false, a.displaced, b.displaced⟩) 0 t (encodeSign1XY a)
    (encodeSources a b)

/-- The word of a well-formed instruction (R72, R76, R81, R90 to R94). -/
def encode : Instr → Insn
  | .nop eof => packWord 0 0 (BitVec.ofBool eof) 0 0 0 0 0 0 0 0 0
  | .add ctl d a b => encodeRForm 1 ctl d a b
  | .div ctl d a b => encodeRForm 2 ctl d a b
  | .mul ctl d a b => encodeRForm 3 ctl d a b
  | .sqrt ctl d a b => encodeRForm 4 ctl d a b
  | .logic ctl d a b => encodeRForm 5 ctl d a b
  | .io ctl d a b => encodeRForm 6 ctl d a b
  | .addI ctl d imm => encodeIForm 1 ctl d imm
  | .divI ctl d imm => encodeIForm 2 ctl d imm
  | .mulI ctl d imm => encodeIForm 3 ctl d imm
  | .sqrtI ctl d imm => encodeIForm 4 ctl d imm
  | .logicI ctl d imm => encodeIForm 5 ctl d imm
  | .ioI ctl d imm => encodeIForm 6 ctl d imm
  | .addBranchAlways ctl t a b => encodeBranch 1 0 ctl t a b
  | .addBranchZero ctl t a b => encodeBranch 1 1 ctl t a b
  | .addBranchNotZero ctl t a b => encodeBranch 1 2 ctl t a b
  | .addBranchSign ctl t a b => encodeBranch 1 3 ctl t a b
  | .addBranchNotSign ctl t a b => encodeBranch 1 4 ctl t a b
  | .addBranchZeroOrSign ctl t a b => encodeBranch 1 5 ctl t a b
  | .addBranchZeroOrNotSign ctl t a b => encodeBranch 1 6 ctl t a b
  | .divBranchAlways ctl t a b => encodeBranch 2 0 ctl t a b
  | .divBranchZero ctl t a b => encodeBranch 2 1 ctl t a b
  | .divBranchNotZero ctl t a b => encodeBranch 2 2 ctl t a b
  | .divBranchSign ctl t a b => encodeBranch 2 3 ctl t a b
  | .divBranchNotSign ctl t a b => encodeBranch 2 4 ctl t a b
  | .divBranchZeroOrSign ctl t a b => encodeBranch 2 5 ctl t a b
  | .divBranchZeroOrNotSign ctl t a b => encodeBranch 2 6 ctl t a b
  | .mulBranchAlways ctl t a b => encodeBranch 3 0 ctl t a b
  | .mulBranchZero ctl t a b => encodeBranch 3 1 ctl t a b
  | .mulBranchNotZero ctl t a b => encodeBranch 3 2 ctl t a b
  | .mulBranchSign ctl t a b => encodeBranch 3 3 ctl t a b
  | .mulBranchNotSign ctl t a b => encodeBranch 3 4 ctl t a b
  | .mulBranchZeroOrSign ctl t a b => encodeBranch 3 5 ctl t a b
  | .mulBranchZeroOrNotSign ctl t a b => encodeBranch 3 6 ctl t a b
  | .sqrtBranchAlways ctl t a b => encodeBranch 4 0 ctl t a b
  | .sqrtBranchZero ctl t a b => encodeBranch 4 1 ctl t a b
  | .sqrtBranchNotZero ctl t a b => encodeBranch 4 2 ctl t a b
  | .sqrtBranchSign ctl t a b => encodeBranch 4 3 ctl t a b
  | .sqrtBranchNotSign ctl t a b => encodeBranch 4 4 ctl t a b
  | .sqrtBranchZeroOrSign ctl t a b => encodeBranch 4 5 ctl t a b
  | .sqrtBranchZeroOrNotSign ctl t a b => encodeBranch 4 6 ctl t a b
  | .logicBranchAlways ctl t a b => encodeBranch 5 0 ctl t a b
  | .logicBranchZero ctl t a b => encodeBranch 5 1 ctl t a b
  | .logicBranchNotZero ctl t a b => encodeBranch 5 2 ctl t a b
  | .logicBranchSign ctl t a b => encodeBranch 5 3 ctl t a b
  | .logicBranchNotSign ctl t a b => encodeBranch 5 4 ctl t a b
  | .logicBranchZeroOrSign ctl t a b => encodeBranch 5 5 ctl t a b
  | .logicBranchZeroOrNotSign ctl t a b => encodeBranch 5 6 ctl t a b
  | .rsvr2 w => w

/-! ## The opcode table (spec/opcode_table.json, R110) -/

/-- The table's `format`. -/
inductive RowFormat where
  | nop
  | rForm
  | iForm
  | branch
  | reserved
deriving DecidableEq, Repr

/-- A row of spec/opcode_table.json: a word `w` selects it when `w &&& mask = match`. -/
structure OpcodeRow where
  mnemonic : String
  format : RowFormat
  bitsMatch : Insn
  bitsMask : Insn
deriving DecidableEq, Repr

/-- The word selects the row (INDEX.md, "Notes on opcode_table.json"). -/
def OpcodeRow.selects (r : OpcodeRow) (w : Insn) : Bool := w &&& r.bitsMask == r.bitsMatch

/-- The NOP, R-form and I-form rows of spec/opcode_table.json. -/
def opcodeRowsPlain : List OpcodeRow :=
  [⟨"NOP", .nop, 0x0000000000000000, 0xFBFFFFFFFFFFFFFF⟩,
   ⟨"ADD", .rForm, 0x0001000000000000, 0xFBFF000000000000⟩,
   ⟨"DIV", .rForm, 0x0002000000000000, 0xFBFF000000000000⟩,
   ⟨"MUL", .rForm, 0x0003000000000000, 0xFBFF000000000000⟩,
   ⟨"SQRT", .rForm, 0x0004000000000000, 0xFBFF000000000000⟩,
   ⟨"LOGIC", .rForm, 0x0005000000000000, 0xFBFF000000000000⟩,
   ⟨"IO", .rForm, 0x0006000000000000, 0xFBFF000000000000⟩,
   ⟨"ADD", .iForm, 0x8001800000000000, 0xFBFFC00300000000⟩,
   ⟨"DIV", .iForm, 0x8002800000000000, 0xFBFFC00300000000⟩,
   ⟨"MUL", .iForm, 0x8003800000000000, 0xFBFFC00300000000⟩,
   ⟨"SQRT", .iForm, 0x8004800000000000, 0xFBFFC00300000000⟩,
   ⟨"LOGIC", .iForm, 0x8005800000000000, 0xFBFFC00300000000⟩,
   ⟨"IO", .iForm, 0x8006800000000000, 0xFBFFC00300000000⟩]

/-- The rows of ADD fused with a branch. -/
def opcodeRowsBranchAdd : List OpcodeRow :=
  [⟨"ADD__BRANCH.ALWAYS", .branch, 0x0201000000000000, 0xFBFF9C0000000000⟩,
   ⟨"ADD__BRANCH.ZERO", .branch, 0x0241000000000000, 0xFBFF9C0000000000⟩,
   ⟨"ADD__BRANCH.NOT_ZERO", .branch, 0x0281000000000000, 0xFBFF9C0000000000⟩,
   ⟨"ADD__BRANCH.SIGN", .branch, 0x02C1000000000000, 0xFBFF9C0000000000⟩,
   ⟨"ADD__BRANCH.NOT_SIGN", .branch, 0x0301000000000000, 0xFBFF9C0000000000⟩,
   ⟨"ADD__BRANCH.ZERO_OR_SIGN", .branch, 0x0341000000000000, 0xFBFF9C0000000000⟩,
   ⟨"ADD__BRANCH.ZERO_OR_NOT_SIGN", .branch, 0x0381000000000000, 0xFBFF9C0000000000⟩]

/-- The rows of DIV fused with a branch. -/
def opcodeRowsBranchDiv : List OpcodeRow :=
  [⟨"DIV__BRANCH.ALWAYS", .branch, 0x0202000000000000, 0xFBFF9C0000000000⟩,
   ⟨"DIV__BRANCH.ZERO", .branch, 0x0242000000000000, 0xFBFF9C0000000000⟩,
   ⟨"DIV__BRANCH.NOT_ZERO", .branch, 0x0282000000000000, 0xFBFF9C0000000000⟩,
   ⟨"DIV__BRANCH.SIGN", .branch, 0x02C2000000000000, 0xFBFF9C0000000000⟩,
   ⟨"DIV__BRANCH.NOT_SIGN", .branch, 0x0302000000000000, 0xFBFF9C0000000000⟩,
   ⟨"DIV__BRANCH.ZERO_OR_SIGN", .branch, 0x0342000000000000, 0xFBFF9C0000000000⟩,
   ⟨"DIV__BRANCH.ZERO_OR_NOT_SIGN", .branch, 0x0382000000000000, 0xFBFF9C0000000000⟩]

/-- The rows of MUL fused with a branch. -/
def opcodeRowsBranchMul : List OpcodeRow :=
  [⟨"MUL__BRANCH.ALWAYS", .branch, 0x0203000000000000, 0xFBFF9C0000000000⟩,
   ⟨"MUL__BRANCH.ZERO", .branch, 0x0243000000000000, 0xFBFF9C0000000000⟩,
   ⟨"MUL__BRANCH.NOT_ZERO", .branch, 0x0283000000000000, 0xFBFF9C0000000000⟩,
   ⟨"MUL__BRANCH.SIGN", .branch, 0x02C3000000000000, 0xFBFF9C0000000000⟩,
   ⟨"MUL__BRANCH.NOT_SIGN", .branch, 0x0303000000000000, 0xFBFF9C0000000000⟩,
   ⟨"MUL__BRANCH.ZERO_OR_SIGN", .branch, 0x0343000000000000, 0xFBFF9C0000000000⟩,
   ⟨"MUL__BRANCH.ZERO_OR_NOT_SIGN", .branch, 0x0383000000000000, 0xFBFF9C0000000000⟩]

/-- The rows of SQRT fused with a branch. -/
def opcodeRowsBranchSqrt : List OpcodeRow :=
  [⟨"SQRT__BRANCH.ALWAYS", .branch, 0x0204000000000000, 0xFBFF9C0000000000⟩,
   ⟨"SQRT__BRANCH.ZERO", .branch, 0x0244000000000000, 0xFBFF9C0000000000⟩,
   ⟨"SQRT__BRANCH.NOT_ZERO", .branch, 0x0284000000000000, 0xFBFF9C0000000000⟩,
   ⟨"SQRT__BRANCH.SIGN", .branch, 0x02C4000000000000, 0xFBFF9C0000000000⟩,
   ⟨"SQRT__BRANCH.NOT_SIGN", .branch, 0x0304000000000000, 0xFBFF9C0000000000⟩,
   ⟨"SQRT__BRANCH.ZERO_OR_SIGN", .branch, 0x0344000000000000, 0xFBFF9C0000000000⟩,
   ⟨"SQRT__BRANCH.ZERO_OR_NOT_SIGN", .branch, 0x0384000000000000, 0xFBFF9C0000000000⟩]

/-- The rows of LOGIC fused with a branch. -/
def opcodeRowsBranchLogic : List OpcodeRow :=
  [⟨"LOGIC__BRANCH.ALWAYS", .branch, 0x0205000000000000, 0xFBFF9C0000000000⟩,
   ⟨"LOGIC__BRANCH.ZERO", .branch, 0x0245000000000000, 0xFBFF9C0000000000⟩,
   ⟨"LOGIC__BRANCH.NOT_ZERO", .branch, 0x0285000000000000, 0xFBFF9C0000000000⟩,
   ⟨"LOGIC__BRANCH.SIGN", .branch, 0x02C5000000000000, 0xFBFF9C0000000000⟩,
   ⟨"LOGIC__BRANCH.NOT_SIGN", .branch, 0x0305000000000000, 0xFBFF9C0000000000⟩,
   ⟨"LOGIC__BRANCH.ZERO_OR_SIGN", .branch, 0x0345000000000000, 0xFBFF9C0000000000⟩,
   ⟨"LOGIC__BRANCH.ZERO_OR_NOT_SIGN", .branch, 0x0385000000000000, 0xFBFF9C0000000000⟩]

/-- The reserved row. -/
def opcodeRowsReserved : List OpcodeRow :=
  [⟨"RSVR2", .reserved, 0x0007000000000000, 0x0007000000000000⟩]

/-- spec/opcode_table.json, row for row. -/
def opcodeTable : List OpcodeRow :=
  opcodeRowsPlain ++ opcodeRowsBranchAdd ++ opcodeRowsBranchDiv ++
  opcodeRowsBranchMul ++ opcodeRowsBranchSqrt ++ opcodeRowsBranchLogic ++ opcodeRowsReserved

/-- The row of an instruction. -/
def opcodeRow : Instr → OpcodeRow
  | .nop _ => ⟨"NOP", .nop, 0x0000000000000000, 0xFBFFFFFFFFFFFFFF⟩
  | .add _ _ _ _ => ⟨"ADD", .rForm, 0x0001000000000000, 0xFBFF000000000000⟩
  | .div _ _ _ _ => ⟨"DIV", .rForm, 0x0002000000000000, 0xFBFF000000000000⟩
  | .mul _ _ _ _ => ⟨"MUL", .rForm, 0x0003000000000000, 0xFBFF000000000000⟩
  | .sqrt _ _ _ _ => ⟨"SQRT", .rForm, 0x0004000000000000, 0xFBFF000000000000⟩
  | .logic _ _ _ _ => ⟨"LOGIC", .rForm, 0x0005000000000000, 0xFBFF000000000000⟩
  | .io _ _ _ _ => ⟨"IO", .rForm, 0x0006000000000000, 0xFBFF000000000000⟩
  | .addI _ _ _ => ⟨"ADD", .iForm, 0x8001800000000000, 0xFBFFC00300000000⟩
  | .divI _ _ _ => ⟨"DIV", .iForm, 0x8002800000000000, 0xFBFFC00300000000⟩
  | .mulI _ _ _ => ⟨"MUL", .iForm, 0x8003800000000000, 0xFBFFC00300000000⟩
  | .sqrtI _ _ _ => ⟨"SQRT", .iForm, 0x8004800000000000, 0xFBFFC00300000000⟩
  | .logicI _ _ _ => ⟨"LOGIC", .iForm, 0x8005800000000000, 0xFBFFC00300000000⟩
  | .ioI _ _ _ => ⟨"IO", .iForm, 0x8006800000000000, 0xFBFFC00300000000⟩
  | .addBranchAlways _ _ _ _ => ⟨"ADD__BRANCH.ALWAYS", .branch, 0x0201000000000000, 0xFBFF9C0000000000⟩
  | .addBranchZero _ _ _ _ => ⟨"ADD__BRANCH.ZERO", .branch, 0x0241000000000000, 0xFBFF9C0000000000⟩
  | .addBranchNotZero _ _ _ _ => ⟨"ADD__BRANCH.NOT_ZERO", .branch, 0x0281000000000000, 0xFBFF9C0000000000⟩
  | .addBranchSign _ _ _ _ => ⟨"ADD__BRANCH.SIGN", .branch, 0x02C1000000000000, 0xFBFF9C0000000000⟩
  | .addBranchNotSign _ _ _ _ => ⟨"ADD__BRANCH.NOT_SIGN", .branch, 0x0301000000000000, 0xFBFF9C0000000000⟩
  | .addBranchZeroOrSign _ _ _ _ => ⟨"ADD__BRANCH.ZERO_OR_SIGN", .branch, 0x0341000000000000, 0xFBFF9C0000000000⟩
  | .addBranchZeroOrNotSign _ _ _ _ => ⟨"ADD__BRANCH.ZERO_OR_NOT_SIGN", .branch, 0x0381000000000000, 0xFBFF9C0000000000⟩
  | .divBranchAlways _ _ _ _ => ⟨"DIV__BRANCH.ALWAYS", .branch, 0x0202000000000000, 0xFBFF9C0000000000⟩
  | .divBranchZero _ _ _ _ => ⟨"DIV__BRANCH.ZERO", .branch, 0x0242000000000000, 0xFBFF9C0000000000⟩
  | .divBranchNotZero _ _ _ _ => ⟨"DIV__BRANCH.NOT_ZERO", .branch, 0x0282000000000000, 0xFBFF9C0000000000⟩
  | .divBranchSign _ _ _ _ => ⟨"DIV__BRANCH.SIGN", .branch, 0x02C2000000000000, 0xFBFF9C0000000000⟩
  | .divBranchNotSign _ _ _ _ => ⟨"DIV__BRANCH.NOT_SIGN", .branch, 0x0302000000000000, 0xFBFF9C0000000000⟩
  | .divBranchZeroOrSign _ _ _ _ => ⟨"DIV__BRANCH.ZERO_OR_SIGN", .branch, 0x0342000000000000, 0xFBFF9C0000000000⟩
  | .divBranchZeroOrNotSign _ _ _ _ => ⟨"DIV__BRANCH.ZERO_OR_NOT_SIGN", .branch, 0x0382000000000000, 0xFBFF9C0000000000⟩
  | .mulBranchAlways _ _ _ _ => ⟨"MUL__BRANCH.ALWAYS", .branch, 0x0203000000000000, 0xFBFF9C0000000000⟩
  | .mulBranchZero _ _ _ _ => ⟨"MUL__BRANCH.ZERO", .branch, 0x0243000000000000, 0xFBFF9C0000000000⟩
  | .mulBranchNotZero _ _ _ _ => ⟨"MUL__BRANCH.NOT_ZERO", .branch, 0x0283000000000000, 0xFBFF9C0000000000⟩
  | .mulBranchSign _ _ _ _ => ⟨"MUL__BRANCH.SIGN", .branch, 0x02C3000000000000, 0xFBFF9C0000000000⟩
  | .mulBranchNotSign _ _ _ _ => ⟨"MUL__BRANCH.NOT_SIGN", .branch, 0x0303000000000000, 0xFBFF9C0000000000⟩
  | .mulBranchZeroOrSign _ _ _ _ => ⟨"MUL__BRANCH.ZERO_OR_SIGN", .branch, 0x0343000000000000, 0xFBFF9C0000000000⟩
  | .mulBranchZeroOrNotSign _ _ _ _ => ⟨"MUL__BRANCH.ZERO_OR_NOT_SIGN", .branch, 0x0383000000000000, 0xFBFF9C0000000000⟩
  | .sqrtBranchAlways _ _ _ _ => ⟨"SQRT__BRANCH.ALWAYS", .branch, 0x0204000000000000, 0xFBFF9C0000000000⟩
  | .sqrtBranchZero _ _ _ _ => ⟨"SQRT__BRANCH.ZERO", .branch, 0x0244000000000000, 0xFBFF9C0000000000⟩
  | .sqrtBranchNotZero _ _ _ _ => ⟨"SQRT__BRANCH.NOT_ZERO", .branch, 0x0284000000000000, 0xFBFF9C0000000000⟩
  | .sqrtBranchSign _ _ _ _ => ⟨"SQRT__BRANCH.SIGN", .branch, 0x02C4000000000000, 0xFBFF9C0000000000⟩
  | .sqrtBranchNotSign _ _ _ _ => ⟨"SQRT__BRANCH.NOT_SIGN", .branch, 0x0304000000000000, 0xFBFF9C0000000000⟩
  | .sqrtBranchZeroOrSign _ _ _ _ => ⟨"SQRT__BRANCH.ZERO_OR_SIGN", .branch, 0x0344000000000000, 0xFBFF9C0000000000⟩
  | .sqrtBranchZeroOrNotSign _ _ _ _ => ⟨"SQRT__BRANCH.ZERO_OR_NOT_SIGN", .branch, 0x0384000000000000, 0xFBFF9C0000000000⟩
  | .logicBranchAlways _ _ _ _ => ⟨"LOGIC__BRANCH.ALWAYS", .branch, 0x0205000000000000, 0xFBFF9C0000000000⟩
  | .logicBranchZero _ _ _ _ => ⟨"LOGIC__BRANCH.ZERO", .branch, 0x0245000000000000, 0xFBFF9C0000000000⟩
  | .logicBranchNotZero _ _ _ _ => ⟨"LOGIC__BRANCH.NOT_ZERO", .branch, 0x0285000000000000, 0xFBFF9C0000000000⟩
  | .logicBranchSign _ _ _ _ => ⟨"LOGIC__BRANCH.SIGN", .branch, 0x02C5000000000000, 0xFBFF9C0000000000⟩
  | .logicBranchNotSign _ _ _ _ => ⟨"LOGIC__BRANCH.NOT_SIGN", .branch, 0x0305000000000000, 0xFBFF9C0000000000⟩
  | .logicBranchZeroOrSign _ _ _ _ => ⟨"LOGIC__BRANCH.ZERO_OR_SIGN", .branch, 0x0345000000000000, 0xFBFF9C0000000000⟩
  | .logicBranchZeroOrNotSign _ _ _ _ => ⟨"LOGIC__BRANCH.ZERO_OR_NOT_SIGN", .branch, 0x0385000000000000, 0xFBFF9C0000000000⟩
  | .rsvr2 _ => ⟨"RSVR2", .reserved, 0x0007000000000000, 0x0007000000000000⟩

/-! ## The host's question -/

/-- The instruction this decoder reads, under the configuration of reset, from the table word `w` of `nbits` bits (bit 0 the
least significant), every bit above `nbits` being 0; `none` where the decoder refuses. One word is one instruction (R70). -/
def decodeTableWord (nbits w : Nat) : Option Instr :=
  (decode Config.standard (BitVec.ofNat 64 (w % 2 ^ nbits))).toOption

end Sys2Proof
end

