-- ==== Sys2Proof/Machine/State.lean ====
section
/-! DEFINITION. The machine's state (10_state.md), every piece of it plain data; why a step can stop; and the state after reset. -/

namespace Sys2Proof.Machine

/-- One channel of a register: its W bits, by their unsigned reading u(v) (00_scope.md R8; W is a parameter of the launch, so it is
no type here, log 3), and whether anything has written it since reset (10_state.md R23, R36). -/
structure Channel where
  value : Nat
  written : Bool
deriving DecidableEq, Repr

/-- A register: three channels (10_state.md R21). -/
abbrev Reg := Vec3 Channel

/-- The instruction memory: (address, word) pairs with addresses strictly rising; an unlisted address is not loaded
(20_memory.md R50, 10_state.md R34, R36). It has no byte view (R50), so its cells are words (log 6). -/
abbrev Memory := List (Nat × Insn)

/-- The event that an IO instruction records under `IO_MODEL` = opaque: `Io(pc, WEX, WEY, WEZ, ed, a, b)` (42_logic_io.md R192).
The operands are kept by their unsigned readings. `dst` is `ed`, absent when no write enable is set: then no destination index is resolved (40_operand_datapath.md R132, log 10). -/
structure IoEvent where
  pc : Nat
  we : Vec3 Bool
  dst : Option Nat
  a : Vec3 Nat
  b : Vec3 Nat
deriving DecidableEq, Repr

/-- Why the machine has no step although nothing was refused. Neither is an exception of the hardware (60_exceptions.md R240). -/
inductive Fault where
  /-- Raised by the fetch: `pc` is not below IMEM_SIZE, or its address is not loaded: the machine is stuck, which is never a
  final state (10_state.md R27, 70_reset_and_hazards.md R277). Safe: the model stops. -/
  | notLoaded
  /-- Raised by the step of a machine whose run is over: an instruction with EOF = 1 has completed, and no further instruction is
  fetched (40_operand_datapath.md R139, 70_reset_and_hazards.md R276; log 14). Safe given EOF_MODEL (log 13). -/
  | runEnded
deriving DecidableEq, Repr

/-- Why the model gives a word or a situation no meaning: the reasons of 60_exceptions.md R243, all of them safe (the model stops
where the hardware may go on). -/
inductive Refusal where
  /-- Raised by an arm of `exec` that has no meaning yet (none is left in this model). Safe. -/
  | notModelled (mnemonic : String)
  /-- Raised by the decoder, with its reason (30_encoding.md R109). Safe. -/
  | undecodable (reason : DecodeRefusal)
  /-- Raised by RSVR2: OPCODE = 111 (30_encoding.md R100, 42_logic_io.md R194). Safe. -/
  | reservedOpcode
  /-- Raised by the operand read or the write-back: index + FO is not below REG_COUNT (40_operand_datapath.md R132). Safe. -/
  | registerIndexOutOfRange
  /-- Raised by LOGIC when the launch supplies no LOGIC_FN (42_logic_io.md R190). Safe. -/
  | logicOperationNotDocumented
  /-- Raised by IO when IO_MODEL = refuse (42_logic_io.md R192). Safe. -/
  | ioNotDocumented
deriving DecidableEq, Repr

/-- The state of the machine (10_state.md; INVENTORY.md lists every field with its rule). -/
structure State where
  /-- The parameters of 00_scope.md R6 that the launch fixed; no instruction changes them. -/
  cfg : Config
  /-- R[0] to R[REG_COUNT-1] (R20, R21): the list's length is REG_COUNT. -/
  regs : List Reg
  /-- The program counter, which counts instructions (R25). -/
  pc : Nat
  /-- The frame offset FO (R31). -/
  fo : BitVec 8
  /-- The instruction memory (20_memory.md R50). -/
  imem : Memory
  /-- The run is over (R35, 70_reset_and_hazards.md R276). -/
  halted : Bool
  /-- The mark `refused`, with its reason (R35, 60_exceptions.md R243); `none`: not refused. -/
  refused : Option Refusal
  /-- The history of Io events, oldest first (42_logic_io.md R192, 70_reset_and_hazards.md R271). -/
  ioLog : List IoEvent
  /-- THE MODEL'S OWN: how many instructions have been executed; it tells one instruction's draws from another's (log 2). -/
  tick : Nat
deriving DecidableEq, Repr

/-- A channel that nothing has written since reset (10_state.md R23, R36). The value under the mark is never read by any
instruction; it is 0, DESIGN CHOICE, log 1. -/
def Channel.unwritten : Channel := ⟨0, false⟩

/-- A register none of whose channels has been written. -/
def Reg.unwritten : Reg := Vec3.all Channel.unwritten

/-- The machine right after reset (10_state.md R36, 70_reset_and_hazards.md R270), before a launch loads a program (log 7):
`pc` = ENTRY_PC, every channel unwritten, no word loaded, not halted, not refused; FO is a launch argument, 0 here (log 5). -/
def State.reset : State where
  cfg := Config.standard
  regs := List.replicate Config.standard.regCount Reg.unwritten
  pc := Config.standard.entryPc
  fo := 0
  imem := []
  halted := false
  refused := none
  ioLog := []
  tick := 0

end Sys2Proof.Machine
end

