-- ==== Sys2Proof/Machine/Ops.lean ====
section
/-! DEFINITION. The named operations over the instruction memory, the registers, the draws, the program counter and the marks
(20_memory.md R50; 40_operand_datapath.md R132, R136, R138, R139; 60_exceptions.md R243). The hardware has no exception, hence no
operation that takes one or returns from one (60_exceptions.md R240, R244, R245). -/

namespace Sys2Proof.Machine

/-- What a step answers in this model. -/
abbrev StepResult := Host.Outcome State Fault Refusal

/-! ## Instruction memory -/

/-- The word at an address, if one is loaded there (20_memory.md R50). -/
def Memory.read : Memory → Nat → Option Insn
  | [], _ => none
  | (k, w) :: m, a => if k = a then some w else Memory.read m a

/-- The memory with a word loaded at an address; the pairs stay in rising order. -/
def Memory.write : Memory → Nat → Insn → Memory
  | [], a, w => [(a, w)]
  | (k, v) :: m, a, w =>
    if a < k then (a, w) :: (k, v) :: m
    else if a = k then (a, w) :: m
    else (k, v) :: Memory.write m a w

/-- The canonical form: addresses strictly rising. (An unlisted address reads as nothing, so no entry can equal it.) -/
def Memory.wf : Memory → Bool
  | [] => true
  | (k, _) :: m => m.all (fun c => decide (k < c.1)) && Memory.wf m

/-- `IFetch(a)` (20_memory.md R50): for a below IMEM_SIZE and loaded; for any other there is no step (10_state.md R27). -/
def ifetch (s : State) (a : Nat) : Option Insn :=
  if a < s.cfg.imemSize then s.imem.read a else none

/-! ## Draws -/

/-- `draw_W()` at one place of the present instruction's step, for one lane (00_scope.md R9): a free value. -/
def draw (s : State) (site : DrawSite) (lane : Chan) : BitVec s.cfg.width := Config.drawn s.cfg.width s.tick site lane

/-! ## Registers -/

/-- The effective index of an operand (40_operand_datapath.md R132): `n`, or the integer sum `n + FO` if displaced. -/
def effIndex (s : State) (n : BitVec 8) (displaced : Bool) : Nat :=
  if displaced then n.toNat + s.fo.toNat else n.toNat

/-- The register at an effective index; `none` where the index is not below REG_COUNT (R132). -/
def regAt (s : State) (e : Nat) : Option Reg := s.regs[e]?

/-- What reading a channel gives (10_state.md R23): its value if something wrote it, else the draw `free`. Without the assumption
NO_HAZARDS (70_reset_and_hazards.md R280) nothing says what an instruction sees of earlier ones: every read is the draw (DESIGN CHOICE,
log 21). -/
def Channel.read {W : Nat} (cfg : Config) (c : Channel) (free : BitVec W) : BitVec W :=
  if c.written && cfg.noHazards then BitVec.ofNat W c.value else free

/-- Some write enable is set. -/
def anyEnabled (we : Vec3 Bool) : Bool := we.x || we.y || we.z

/-- The register's new content (R136): an enabled channel takes the result's lane, the others keep what they hold. -/
def mergeReg {W : Nat} (we : Vec3 Bool) (r : Vec W) (old : Reg) : Reg where
  x := if we.x then ⟨r.x.toNat, true⟩ else old.x
  y := if we.y then ⟨r.y.toNat, true⟩ else old.y
  z := if we.z then ⟨r.z.toNat, true⟩ else old.z

/-- Write-back (R136): the result goes to the enabled channels of the destination. The destination index is resolved only when a
write enable is set; `none` where it is then not below REG_COUNT (R132). -/
def writeBack {W : Nat} (d : Dst) (r : Vec W) (s : State) : Option State :=
  if anyEnabled d.we then
    match regAt s (effIndex s d.index d.displaced) with
    | none => none
    | some old => some { s with regs := s.regs.set (effIndex s d.index d.displaced) (mergeReg d.we r old) }
  else some s

/-! ## The end of an instruction -/

/-- The last part of a step (R138, R139): the program counter goes to `target`, and EOF = 1 ends the run. The model's own count
of executed instructions goes up. -/
def retire (eof : Bool) (target : Nat) (s : State) : State :=
  { s with pc := target, halted := s.halted || eof, tick := s.tick + 1 }

/-- Write-back and the advance to the next instruction (R136, R138, R139). -/
def completeWrite {W : Nat} (eof : Bool) (d : Dst) (r : Vec W) (s : State) : StepResult :=
  match writeBack d r s with
  | none => .refused .registerIndexOutOfRange
  | some t => .next (retire eof (t.pc + 1) t)

/-- The mark that a refusal leaves (60_exceptions.md R243): the state is otherwise as the refused instruction found it (R242). -/
def markRefused (r : Refusal) (s : State) : State := { s with refused := some r }

end Sys2Proof.Machine
end

