-- ==== Sys2Proof/Machine/Alu.lean ====
section
/-! DEFINITION. What each operation computes in one lane (41_arithmetic.md R161 to R173, 42_logic_io.md R190), and the lane-wise
computation of a result (40_operand_datapath.md R135). -/

namespace Sys2Proof.Machine

/-- ADD (R161, R169): the sum modulo 2^W. -/
def addLane {W : Nat} (a b : BitVec W) : BitVec W := BitVec.ofNat W (a.toNat + b.toNat)

/-- The default `MUL_FN` (R165, R171): the low W bits of the product of the unsigned readings. -/
def mulDefault {W : Nat} (a b : BitVec W) : BitVec W := BitVec.ofNat W (a.toNat * b.toNat)

/-- The default `DIV_FN` for b ≠ 0 (R163, R172): the quotient of the signed readings, rounded toward zero, modulo 2^W. -/
def divDefault {W : Nat} (a b : BitVec W) : BitVec W := BitVec.ofInt W (Int.tdiv a.toInt b.toInt)

/-- The square root's bits below `k`, from the highest down: `r`, or `r + 2^(k-1)` where its square is still at most `n`. -/
def sqrtBits (n : Nat) : Nat → Nat → Nat
  | 0, r => r
  | k + 1, r => if (r + 2 ^ k) * (r + 2 ^ k) ≤ n then sqrtBits n k (r + 2 ^ k) else sqrtBits n k r

/-- The default `SQRT_FN` (R167, R173): the floor of the square root of a read as unsigned; b is ignored. -/
def sqrtDefault {W : Nat} (a _b : BitVec W) : BitVec W := BitVec.ofNat W (sqrtBits a.toNat ((W + 1) / 2) 0)

/-- `MUL_FN` (R165). -/
def mulLane {W : Nat} (cfg : Config) (a b : BitVec W) : BitVec W :=
  match cfg.mulFn with
  | .specDefault => mulDefault a b
  | .supplied => Config.mulFunction a b

/-- `DIV_FN` (R163, R172): `free` is the draw that a division by zero gives. -/
def divLane {W : Nat} (cfg : Config) (free a b : BitVec W) : BitVec W :=
  if b = 0 then free
  else
    match cfg.divFn with
    | .specDefault => divDefault a b
    | .supplied => Config.divFunction a b

/-- `SQRT_FN` (R167). -/
def sqrtLane {W : Nat} (cfg : Config) (a b : BitVec W) : BitVec W :=
  match cfg.sqrtFn with
  | .specDefault => sqrtDefault a b
  | .supplied => Config.sqrtFunction a b

/-- `LOGIC_FN` with the selector SCOP/LOP (42_logic_io.md R190); without SCOP_TABLE only 0 reaches it (R101). -/
def logicLane {W : Nat} (scop : BitVec 4) (a b : BitVec W) : BitVec W := Config.logicFunction scop a b

/-- What a supplied SCOP_TABLE makes of an operation under a selector other than 0, in one lane (30_encoding.md R101, log 18):
LOGIC_FN of that selector for LOGIC (42_logic_io.md R190); else uninterpreted, a division by zero a draw as ever. -/
def scopLane {W : Nat} (op : AluOp) (scop : BitVec 4) (free a b : BitVec W) : BitVec W :=
  match op with
  | .add => Config.scopFunction .add scop a b
  | .div => if b = 0 then free else Config.scopFunction .div scop a b
  | .mul => Config.scopFunction .mul scop a b
  | .sqrt => Config.scopFunction .sqrt scop a b
  | .logic => logicLane scop a b

/-- The scalar function of an operation under the selector 0 (40_operand_datapath.md R135), in one lane. -/
def plainLane (op : AluOp) (s : State) (lane : Chan) (a b : BitVec s.cfg.width) : BitVec s.cfg.width :=
  match op with
  | .add => addLane a b
  | .div => divLane s.cfg (draw s .quotient lane) a b
  | .mul => mulLane s.cfg a b
  | .sqrt => sqrtLane s.cfg a b
  | .logic => logicLane 0 a b

/-- The scalar function of an operation under its selector SCOP/LOP (R135, R101), in one lane. -/
def aluLane (op : AluOp) (scop : BitVec 4) (s : State) (lane : Chan) (a b : BitVec s.cfg.width) : BitVec s.cfg.width :=
  if scop = 0 then plainLane op s lane a b else scopLane op scop (draw s .quotient lane) a b

/-- The result of an operation, lane by lane, all three lanes always (R135). -/
def aluResult (op : AluOp) (scop : BitVec 4) (s : State) (a b : Vec s.cfg.width) : Vec s.cfg.width :=
  Vec3.ofLanes fun lane => aluLane op scop s lane (a.get lane) (b.get lane)

/-- LOGIC without a `LOGIC_FN` is refused before it computes (42_logic_io.md R190); no other operation is. -/
def aluRefusal (op : AluOp) (s : State) : Option Refusal :=
  match op, s.cfg.logicFn with
  | .logic, .absent => some .logicOperationNotDocumented
  | _, _ => none

end Sys2Proof.Machine
end

