-- ==== Sys2Proof/Machine/Flags.lean ====
section
/-! DEFINITION. The two conditions of a branch and the seven branch types (43_branch.md R211 to R218). They live inside one step:
there is no flag register (10_state.md R29). -/

namespace Sys2Proof.Machine

/-- Bit W-1 of a lane. -/
def signBit {W : Nat} (v : BitVec W) : Bool := v.getLsbD (W - 1)

/-- `ZERO_RULE(r)` (R211): by default all three lanes are 0. -/
def zeroCondition {W : Nat} (cfg : Config) (r : Vec W) : Bool :=
  match cfg.zeroRule with
  | .allLanes => r.x == 0 && r.y == 0 && r.z == 0
  | .laneX => r.x == 0
  | .supplied => Config.zeroFunction r

/-- `SIGN_RULE(r)` (R211): by default bit W-1 of lane x. -/
def signCondition {W : Nat} (cfg : Config) (r : Vec W) : Bool :=
  match cfg.signRule with
  | .laneX => signBit r.x
  | .anyLane => signBit r.x || signBit r.y || signBit r.z
  | .everyLane => signBit r.x && signBit r.y && signBit r.z
  | .supplied => Config.signFunction r

/-- `cond(BOP, Z, S)` (R212 to R218). -/
def branchCondition (ty : BranchType) (zero sign : Bool) : Bool :=
  match ty with
  | .always => true
  | .zero => zero
  | .notZero => !zero
  | .sign => sign
  | .notSign => !sign
  | .zeroOrSign => zero || sign
  | .zeroOrNotSign => zero || !sign

/-- Whether a branch is taken on a result (R210). -/
def branchTaken {W : Nat} (cfg : Config) (ty : BranchType) (r : Vec W) : Bool :=
  branchCondition ty (zeroCondition cfg r) (signCondition cfg r)

end Sys2Proof.Machine
end

