-- ==== Sys2Proof/Machine/Operands.lean ====
section
/-! DEFINITION. Preparing operands (40_operand_datapath.md R133, R134). -/

namespace Sys2Proof.Machine

/-- `neg_W` (00_scope.md R8): two's-complement negation (41_arithmetic.md R170; decision D6). -/
def negW {W : Nat} (v : BitVec W) : BitVec W := BitVec.ofNat W (2 ^ W - v.toNat)

/-- One lane of a register source (R133): the swizzle chooses the channel, then the lane's sign bit negates what was chosen. An
unwritten channel gives a draw, afresh for each lane that reads it (10_state.md R23). -/
def sourceLane (s : State) (site : DrawSite) (o : Src) (r : Reg) (lane : Chan) : BitVec s.cfg.width :=
  let v := (r.get (o.sel.get lane)).read s.cfg (draw s site lane)
  if o.neg.get lane then negW v else v

/-- A prepared register source (R133); `none` where its effective index is not below REG_COUNT (R132). -/
def sourceOperand (s : State) (site : DrawSite) (o : Src) : Option (Vec s.cfg.width) :=
  match regAt s (effIndex s o.addr o.displaced) with
  | none => none
  | some r => some (Vec3.ofLanes (sourceLane s site o r))

/-- The literal as a channel value: "taken as it stands" where W = 32 (30_encoding.md R82); a free value under another width, for
which the spec leaves its treatment open (decision D1; DESIGN CHOICE, log 3). -/
def literalValue (W : Nat) (imm : Word) : BitVec W := if W = 32 then imm.setWidth W else Config.literalFunction W imm

/-- The I-form's operand a (R134): the literal in all three lanes. -/
def literalOperand (W : Nat) (imm : Word) : Vec W := Vec3.all (literalValue W imm)

/-- The I-form's operand b (R134): zero in all three lanes. -/
def zeroOperand (W : Nat) : Vec W := Vec3.all 0

end Sys2Proof.Machine
end

