-- ==== Sys2Proof/Machine/Datapath.lean ====
section
/-! DEFINITION. The common step of 40_operand_datapath.md R130, from the operand read on, for the R-form, the I-form, the branch
and IO. Refusals come in the order of 60_exceptions.md R242: source 1, source 0, LOGIC_FN or IO_MODEL, destination. -/

namespace Sys2Proof.Machine

/-- The R-form of an operation (R130 with R133, R135, R136, R138, R139). -/
def rForm (op : AluOp) (ctl : Control) (d : Dst) (a b : Src) (s : State) : StepResult :=
  match sourceOperand s .source1 a, sourceOperand s .source0 b with
  | some va, some vb =>
    match aluRefusal op s with
    | some r => .refused r
    | none => completeWrite ctl.eof d (aluResult op ctl.scop s va vb) s
  | _, _ => .refused .registerIndexOutOfRange

/-- The I-form of an operation (R130 with R134, R135, R136, R138, R139). -/
def iForm (op : AluOp) (ctl : Control) (d : Dst) (imm : Word) (s : State) : StepResult :=
  match aluRefusal op s with
  | some r => .refused r
  | none => completeWrite ctl.eof d (aluResult op ctl.scop s (literalOperand s.cfg.width imm) (zeroOperand s.cfg.width)) s

/-- A branch fused with an operation (43_branch.md R210): the result decides, nothing is written. -/
def branchForm (op : AluOp) (ty : BranchType) (ctl : Control) (t : BitVec 8) (a b : Src) (s : State) : StepResult :=
  match sourceOperand s .source1 a, sourceOperand s .source0 b with
  | some va, some vb =>
    match aluRefusal op s with
    | some r => .refused r
    | none =>
      .next (retire ctl.eof (if branchTaken s.cfg ty (aluResult op ctl.scop s va vb) then t.toNat else s.pc + 1) s)
  | _, _ => .refused .registerIndexOutOfRange

/-- The event an IO instruction records (42_logic_io.md R192); `ed` is resolved only when a write enable is set (R132, log 10). -/
def ioEvent {W : Nat} (d : Dst) (a b : Vec W) (s : State) : IoEvent where
  pc := s.pc
  we := d.we
  dst := if anyEnabled d.we then some (effIndex s d.index d.displaced) else none
  a := a.readings
  b := b.readings

/-- What an IO instruction brings in: a draw for each lane (R192). -/
def ioInput (s : State) : Vec s.cfg.width := Vec3.ofLanes (draw s .input)

/-- IO on prepared operands (R192): refused, or recorded with the enabled destination channels becoming draws. Where the
destination index check then refuses the instruction (60_exceptions.md R242), the event goes with it: a refused instruction leaves
the history as it was. DESIGN CHOICE, log 33. -/
def ioTransfer {W : Nat} (eof : Bool) (d : Dst) (a b : Vec W) (s : State) : StepResult :=
  match s.cfg.ioModel with
  | .refuse => .refused .ioNotDocumented
  | .opaqueEvents => completeWrite eof d (ioInput s) { s with ioLog := s.ioLog ++ [ioEvent d a b s] }

end Sys2Proof.Machine
end

