-- ==== Sys2Proof/Machine/Arithmetic.lean ====
section
/-! DEFINITION. NOP and the arithmetic instructions ADD, DIV, MUL, SQRT, in the R-form and the I-form (41_arithmetic.md). -/

namespace Sys2Proof.Machine

/-- NOP (R160): `pc <- pc + 1`, and EOF as for every instruction (R139). -/
def execNop (eof : Bool) (s : State) : StepResult := .next (retire eof (s.pc + 1) s)

/-- ADD, R-form (R161). -/
def execAdd (ctl : Control) (d : Dst) (a b : Src) (s : State) : StepResult := rForm .add ctl d a b s

/-- ADD, I-form (R162). -/
def execAddI (ctl : Control) (d : Dst) (imm : Word) (s : State) : StepResult := iForm .add ctl d imm s

/-- DIV, R-form (R163). -/
def execDiv (ctl : Control) (d : Dst) (a b : Src) (s : State) : StepResult := rForm .div ctl d a b s

/-- DIV, I-form (R164). -/
def execDivI (ctl : Control) (d : Dst) (imm : Word) (s : State) : StepResult := iForm .div ctl d imm s

/-- MUL, R-form (R165). -/
def execMul (ctl : Control) (d : Dst) (a b : Src) (s : State) : StepResult := rForm .mul ctl d a b s

/-- MUL, I-form (R166). -/
def execMulI (ctl : Control) (d : Dst) (imm : Word) (s : State) : StepResult := iForm .mul ctl d imm s

/-- SQRT, R-form (R167). -/
def execSqrt (ctl : Control) (d : Dst) (a b : Src) (s : State) : StepResult := rForm .sqrt ctl d a b s

/-- SQRT, I-form (R168). -/
def execSqrtI (ctl : Control) (d : Dst) (imm : Word) (s : State) : StepResult := iForm .sqrt ctl d imm s

end Sys2Proof.Machine
end

