-- ==== Sys2Proof/Machine/Branch.lean ====
section
/-! DEFINITION. The branches (43_branch.md): seven types, each fused with ADD, DIV, MUL, SQRT or LOGIC. -/

namespace Sys2Proof.Machine

/-- ADD <BRANCH.ALWAYS> (R210, R212, R161). -/
def execAddBranchAlways (ctl : Control) (t : BitVec 8) (a b : Src) (s : State) : StepResult :=
  branchForm .add .always ctl t a b s

/-- ADD <BRANCH.ZERO> (R210, R213, R161). -/
def execAddBranchZero (ctl : Control) (t : BitVec 8) (a b : Src) (s : State) : StepResult :=
  branchForm .add .zero ctl t a b s

/-- ADD <BRANCH.NOT_ZERO> (R210, R214, R161). -/
def execAddBranchNotZero (ctl : Control) (t : BitVec 8) (a b : Src) (s : State) : StepResult :=
  branchForm .add .notZero ctl t a b s

/-- ADD <BRANCH.SIGN> (R210, R215, R161). -/
def execAddBranchSign (ctl : Control) (t : BitVec 8) (a b : Src) (s : State) : StepResult :=
  branchForm .add .sign ctl t a b s

/-- ADD <BRANCH.NOT_SIGN> (R210, R216, R161). -/
def execAddBranchNotSign (ctl : Control) (t : BitVec 8) (a b : Src) (s : State) : StepResult :=
  branchForm .add .notSign ctl t a b s

/-- ADD <BRANCH.ZERO_OR_SIGN> (R210, R217, R161). -/
def execAddBranchZeroOrSign (ctl : Control) (t : BitVec 8) (a b : Src) (s : State) : StepResult :=
  branchForm .add .zeroOrSign ctl t a b s

/-- ADD <BRANCH.ZERO_OR_NOT_SIGN> (R210, R218, R161). -/
def execAddBranchZeroOrNotSign (ctl : Control) (t : BitVec 8) (a b : Src) (s : State) : StepResult :=
  branchForm .add .zeroOrNotSign ctl t a b s

/-- DIV <BRANCH.ALWAYS> (R210, R212, R163). -/
def execDivBranchAlways (ctl : Control) (t : BitVec 8) (a b : Src) (s : State) : StepResult :=
  branchForm .div .always ctl t a b s

/-- DIV <BRANCH.ZERO> (R210, R213, R163). -/
def execDivBranchZero (ctl : Control) (t : BitVec 8) (a b : Src) (s : State) : StepResult :=
  branchForm .div .zero ctl t a b s

/-- DIV <BRANCH.NOT_ZERO> (R210, R214, R163). -/
def execDivBranchNotZero (ctl : Control) (t : BitVec 8) (a b : Src) (s : State) : StepResult :=
  branchForm .div .notZero ctl t a b s

/-- DIV <BRANCH.SIGN> (R210, R215, R163). -/
def execDivBranchSign (ctl : Control) (t : BitVec 8) (a b : Src) (s : State) : StepResult :=
  branchForm .div .sign ctl t a b s

/-- DIV <BRANCH.NOT_SIGN> (R210, R216, R163). -/
def execDivBranchNotSign (ctl : Control) (t : BitVec 8) (a b : Src) (s : State) : StepResult :=
  branchForm .div .notSign ctl t a b s

/-- DIV <BRANCH.ZERO_OR_SIGN> (R210, R217, R163). -/
def execDivBranchZeroOrSign (ctl : Control) (t : BitVec 8) (a b : Src) (s : State) : StepResult :=
  branchForm .div .zeroOrSign ctl t a b s

/-- DIV <BRANCH.ZERO_OR_NOT_SIGN> (R210, R218, R163). -/
def execDivBranchZeroOrNotSign (ctl : Control) (t : BitVec 8) (a b : Src) (s : State) : StepResult :=
  branchForm .div .zeroOrNotSign ctl t a b s

/-- MUL <BRANCH.ALWAYS> (R210, R212, R165). -/
def execMulBranchAlways (ctl : Control) (t : BitVec 8) (a b : Src) (s : State) : StepResult :=
  branchForm .mul .always ctl t a b s

/-- MUL <BRANCH.ZERO> (R210, R213, R165). -/
def execMulBranchZero (ctl : Control) (t : BitVec 8) (a b : Src) (s : State) : StepResult :=
  branchForm .mul .zero ctl t a b s

/-- MUL <BRANCH.NOT_ZERO> (R210, R214, R165). -/
def execMulBranchNotZero (ctl : Control) (t : BitVec 8) (a b : Src) (s : State) : StepResult :=
  branchForm .mul .notZero ctl t a b s

/-- MUL <BRANCH.SIGN> (R210, R215, R165). -/
def execMulBranchSign (ctl : Control) (t : BitVec 8) (a b : Src) (s : State) : StepResult :=
  branchForm .mul .sign ctl t a b s

/-- MUL <BRANCH.NOT_SIGN> (R210, R216, R165). -/
def execMulBranchNotSign (ctl : Control) (t : BitVec 8) (a b : Src) (s : State) : StepResult :=
  branchForm .mul .notSign ctl t a b s

/-- MUL <BRANCH.ZERO_OR_SIGN> (R210, R217, R165). -/
def execMulBranchZeroOrSign (ctl : Control) (t : BitVec 8) (a b : Src) (s : State) : StepResult :=
  branchForm .mul .zeroOrSign ctl t a b s

/-- MUL <BRANCH.ZERO_OR_NOT_SIGN> (R210, R218, R165). -/
def execMulBranchZeroOrNotSign (ctl : Control) (t : BitVec 8) (a b : Src) (s : State) : StepResult :=
  branchForm .mul .zeroOrNotSign ctl t a b s

/-- SQRT <BRANCH.ALWAYS> (R210, R212, R167). -/
def execSqrtBranchAlways (ctl : Control) (t : BitVec 8) (a b : Src) (s : State) : StepResult :=
  branchForm .sqrt .always ctl t a b s

/-- SQRT <BRANCH.ZERO> (R210, R213, R167). -/
def execSqrtBranchZero (ctl : Control) (t : BitVec 8) (a b : Src) (s : State) : StepResult :=
  branchForm .sqrt .zero ctl t a b s

/-- SQRT <BRANCH.NOT_ZERO> (R210, R214, R167). -/
def execSqrtBranchNotZero (ctl : Control) (t : BitVec 8) (a b : Src) (s : State) : StepResult :=
  branchForm .sqrt .notZero ctl t a b s

/-- SQRT <BRANCH.SIGN> (R210, R215, R167). -/
def execSqrtBranchSign (ctl : Control) (t : BitVec 8) (a b : Src) (s : State) : StepResult :=
  branchForm .sqrt .sign ctl t a b s

/-- SQRT <BRANCH.NOT_SIGN> (R210, R216, R167). -/
def execSqrtBranchNotSign (ctl : Control) (t : BitVec 8) (a b : Src) (s : State) : StepResult :=
  branchForm .sqrt .notSign ctl t a b s

/-- SQRT <BRANCH.ZERO_OR_SIGN> (R210, R217, R167). -/
def execSqrtBranchZeroOrSign (ctl : Control) (t : BitVec 8) (a b : Src) (s : State) : StepResult :=
  branchForm .sqrt .zeroOrSign ctl t a b s

/-- SQRT <BRANCH.ZERO_OR_NOT_SIGN> (R210, R218, R167). -/
def execSqrtBranchZeroOrNotSign (ctl : Control) (t : BitVec 8) (a b : Src) (s : State) : StepResult :=
  branchForm .sqrt .zeroOrNotSign ctl t a b s

/-- LOGIC <BRANCH.ALWAYS> (R210, R212, R190). -/
def execLogicBranchAlways (ctl : Control) (t : BitVec 8) (a b : Src) (s : State) : StepResult :=
  branchForm .logic .always ctl t a b s

/-- LOGIC <BRANCH.ZERO> (R210, R213, R190). -/
def execLogicBranchZero (ctl : Control) (t : BitVec 8) (a b : Src) (s : State) : StepResult :=
  branchForm .logic .zero ctl t a b s

/-- LOGIC <BRANCH.NOT_ZERO> (R210, R214, R190). -/
def execLogicBranchNotZero (ctl : Control) (t : BitVec 8) (a b : Src) (s : State) : StepResult :=
  branchForm .logic .notZero ctl t a b s

/-- LOGIC <BRANCH.SIGN> (R210, R215, R190). -/
def execLogicBranchSign (ctl : Control) (t : BitVec 8) (a b : Src) (s : State) : StepResult :=
  branchForm .logic .sign ctl t a b s

/-- LOGIC <BRANCH.NOT_SIGN> (R210, R216, R190). -/
def execLogicBranchNotSign (ctl : Control) (t : BitVec 8) (a b : Src) (s : State) : StepResult :=
  branchForm .logic .notSign ctl t a b s

/-- LOGIC <BRANCH.ZERO_OR_SIGN> (R210, R217, R190). -/
def execLogicBranchZeroOrSign (ctl : Control) (t : BitVec 8) (a b : Src) (s : State) : StepResult :=
  branchForm .logic .zeroOrSign ctl t a b s

/-- LOGIC <BRANCH.ZERO_OR_NOT_SIGN> (R210, R218, R190). -/
def execLogicBranchZeroOrNotSign (ctl : Control) (t : BitVec 8) (a b : Src) (s : State) : StepResult :=
  branchForm .logic .zeroOrNotSign ctl t a b s

end Sys2Proof.Machine
end

