-- ==== Sys2Proof/Machine/LogicIo.lean ====
section
/-! DEFINITION. LOGIC, IO and the reserved operation RSVR2 (42_logic_io.md). -/

namespace Sys2Proof.Machine

/-- LOGIC, R-form (R190). -/
def execLogic (ctl : Control) (d : Dst) (a b : Src) (s : State) : StepResult := rForm .logic ctl d a b s

/-- LOGIC, I-form (R191). -/
def execLogicI (ctl : Control) (d : Dst) (imm : Word) (s : State) : StepResult := iForm .logic ctl d imm s

/-- IO, R-form (R192): the operands are prepared as in every R-form. The rule reads no selector, so SCOP/LOP changes nothing here
(log 18). -/
def execIo (ctl : Control) (d : Dst) (a b : Src) (s : State) : StepResult :=
  match sourceOperand s .source1 a, sourceOperand s .source0 b with
  | some va, some vb => ioTransfer ctl.eof d va vb s
  | _, _ => .refused .registerIndexOutOfRange

/-- IO, I-form (R193): a is the literal in all lanes, b is zero; no selector is read (log 18). -/
def execIoI (ctl : Control) (d : Dst) (imm : Word) (s : State) : StepResult :=
  ioTransfer ctl.eof d (literalOperand s.cfg.width imm) (zeroOperand s.cfg.width) s

/-- RSVR2 (R194, 30_encoding.md R100): "RESERVED", "The compiler should never assign this value"; always refused. -/
def execRsvr2 (_word : Insn) (_s : State) : StepResult := .refused .reservedOpcode

end Sys2Proof.Machine
end

