-- ==== Sys2Proof/Machine/Dispatch.lean ====
section
/-! DEFINITION. The meaning of every instruction: one arm per constructor of `Instr`. -/

namespace Sys2Proof.Machine

def exec (i : Instr) (s : State) : Host.Outcome State Fault Refusal :=
  match i with
  | .nop eof => Sys2Proof.Machine.execNop eof s
  | .add ctl d a b => Sys2Proof.Machine.execAdd ctl d a b s
  | .div ctl d a b => Sys2Proof.Machine.execDiv ctl d a b s
  | .mul ctl d a b => Sys2Proof.Machine.execMul ctl d a b s
  | .sqrt ctl d a b => Sys2Proof.Machine.execSqrt ctl d a b s
  | .logic ctl d a b => Sys2Proof.Machine.execLogic ctl d a b s
  | .io ctl d a b => Sys2Proof.Machine.execIo ctl d a b s
  | .addI ctl d imm => Sys2Proof.Machine.execAddI ctl d imm s
  | .divI ctl d imm => Sys2Proof.Machine.execDivI ctl d imm s
  | .mulI ctl d imm => Sys2Proof.Machine.execMulI ctl d imm s
  | .sqrtI ctl d imm => Sys2Proof.Machine.execSqrtI ctl d imm s
  | .logicI ctl d imm => Sys2Proof.Machine.execLogicI ctl d imm s
  | .ioI ctl d imm => Sys2Proof.Machine.execIoI ctl d imm s
  | .addBranchAlways ctl t a b => Sys2Proof.Machine.execAddBranchAlways ctl t a b s
  | .addBranchZero ctl t a b => Sys2Proof.Machine.execAddBranchZero ctl t a b s
  | .addBranchNotZero ctl t a b => Sys2Proof.Machine.execAddBranchNotZero ctl t a b s
  | .addBranchSign ctl t a b => Sys2Proof.Machine.execAddBranchSign ctl t a b s
  | .addBranchNotSign ctl t a b => Sys2Proof.Machine.execAddBranchNotSign ctl t a b s
  | .addBranchZeroOrSign ctl t a b => Sys2Proof.Machine.execAddBranchZeroOrSign ctl t a b s
  | .addBranchZeroOrNotSign ctl t a b => Sys2Proof.Machine.execAddBranchZeroOrNotSign ctl t a b s
  | .divBranchAlways ctl t a b => Sys2Proof.Machine.execDivBranchAlways ctl t a b s
  | .divBranchZero ctl t a b => Sys2Proof.Machine.execDivBranchZero ctl t a b s
  | .divBranchNotZero ctl t a b => Sys2Proof.Machine.execDivBranchNotZero ctl t a b s
  | .divBranchSign ctl t a b => Sys2Proof.Machine.execDivBranchSign ctl t a b s
  | .divBranchNotSign ctl t a b => Sys2Proof.Machine.execDivBranchNotSign ctl t a b s
  | .divBranchZeroOrSign ctl t a b => Sys2Proof.Machine.execDivBranchZeroOrSign ctl t a b s
  | .divBranchZeroOrNotSign ctl t a b => Sys2Proof.Machine.execDivBranchZeroOrNotSign ctl t a b s
  | .mulBranchAlways ctl t a b => Sys2Proof.Machine.execMulBranchAlways ctl t a b s
  | .mulBranchZero ctl t a b => Sys2Proof.Machine.execMulBranchZero ctl t a b s
  | .mulBranchNotZero ctl t a b => Sys2Proof.Machine.execMulBranchNotZero ctl t a b s
  | .mulBranchSign ctl t a b => Sys2Proof.Machine.execMulBranchSign ctl t a b s
  | .mulBranchNotSign ctl t a b => Sys2Proof.Machine.execMulBranchNotSign ctl t a b s
  | .mulBranchZeroOrSign ctl t a b => Sys2Proof.Machine.execMulBranchZeroOrSign ctl t a b s
  | .mulBranchZeroOrNotSign ctl t a b => Sys2Proof.Machine.execMulBranchZeroOrNotSign ctl t a b s
  | .sqrtBranchAlways ctl t a b => Sys2Proof.Machine.execSqrtBranchAlways ctl t a b s
  | .sqrtBranchZero ctl t a b => Sys2Proof.Machine.execSqrtBranchZero ctl t a b s
  | .sqrtBranchNotZero ctl t a b => Sys2Proof.Machine.execSqrtBranchNotZero ctl t a b s
  | .sqrtBranchSign ctl t a b => Sys2Proof.Machine.execSqrtBranchSign ctl t a b s
  | .sqrtBranchNotSign ctl t a b => Sys2Proof.Machine.execSqrtBranchNotSign ctl t a b s
  | .sqrtBranchZeroOrSign ctl t a b => Sys2Proof.Machine.execSqrtBranchZeroOrSign ctl t a b s
  | .sqrtBranchZeroOrNotSign ctl t a b => Sys2Proof.Machine.execSqrtBranchZeroOrNotSign ctl t a b s
  | .logicBranchAlways ctl t a b => Sys2Proof.Machine.execLogicBranchAlways ctl t a b s
  | .logicBranchZero ctl t a b => Sys2Proof.Machine.execLogicBranchZero ctl t a b s
  | .logicBranchNotZero ctl t a b => Sys2Proof.Machine.execLogicBranchNotZero ctl t a b s
  | .logicBranchSign ctl t a b => Sys2Proof.Machine.execLogicBranchSign ctl t a b s
  | .logicBranchNotSign ctl t a b => Sys2Proof.Machine.execLogicBranchNotSign ctl t a b s
  | .logicBranchZeroOrSign ctl t a b => Sys2Proof.Machine.execLogicBranchZeroOrSign ctl t a b s
  | .logicBranchZeroOrNotSign ctl t a b => Sys2Proof.Machine.execLogicBranchZeroOrNotSign ctl t a b s
  | .rsvr2 w => Sys2Proof.Machine.execRsvr2 w s

end Sys2Proof.Machine
end

