-- ==== Sys2Proof/Machine/Fetch.lean ====
section
/-! DEFINITION. Fetching and decoding the next instruction (40_operand_datapath.md R130 steps 1 and 2), and putting a word where
the next fetch finds it. -/

namespace Sys2Proof.Machine

/-- What the fetch and the decoder make of a state: an instruction to execute, or why there is none. -/
inductive Fetched where
  | instruction (i : Instr)
  | fault (r : Fault)
  | refused (r : Refusal)
deriving DecidableEq, Repr

/-- R130, its precondition (not refused, not halted) and its steps 1 and 2: fetch at `pc`, then decode. A refused run stays
refused, under the reason it has (60_exceptions.md R243); a halted one has ended (R139); an address that is not loaded has no step
(10_state.md R27). -/
def fetchDecode (s : State) : Fetched :=
  match s.refused with
  | some r => .refused r
  | none =>
    if s.halted then .fault .runEnded
    else
      match ifetch s s.pc with
      | none => .fault .notLoaded
      | some w =>
        match decode s.cfg w with
        | .error r => .refused (.undecodable r)
        | .ok i => .instruction i

/-- Where a word is put so that the next fetch finds it: at `pc`, or at ENTRY_PC's default 0 where `pc` is not below IMEM_SIZE. -/
def fetchSlot (s : State) : Nat := if s.pc < s.cfg.imemSize then s.pc else 0

/-- The state with a word loaded where the next step fetches, and with what R130's precondition asks for (not halted, not
refused). -/
def placeWord (s : State) (w : Insn) : State :=
  { s with imem := s.imem.write (fetchSlot s) w, pc := fetchSlot s, halted := false, refused := none }

end Sys2Proof.Machine
end

