-- ==== Sys2Proof/Machine/Step.lean ====
section
/-! DEFINITION. One step (40_operand_datapath.md R130). -/

namespace Sys2Proof.Machine

/-- One step of the machine: fetch and decode, then the instruction's meaning, which moves `pc` itself (R138). -/
def step (s : State) : Host.Outcome State Fault Refusal :=
  match fetchDecode s with
  | .instruction i => exec i s
  | .fault r => .fault r
  | .refused r => .refused r

/-- The state with the instruction whose bits are `w` (every bit above `nbits` being 0) stored where `step` fetches next (log 7). -/
def State.withFetchWord (s : State) (nbits w : Nat) : State := placeWord s (BitVec.ofNat 64 (w % 2 ^ nbits))

end Sys2Proof.Machine
end

