-- ==== Sys2Proof/Machine/TasmSyntax.lean ====
section
/-! DEFINITION. The text level, T-ASM (30_encoding.md R111 to R125): tokens, statements as R112 reads the grammar, and the named
reasons for which a transcriber refuses a text (R123, log 29). -/

namespace Sys2Proof.Tasm

/-- A token of T-ASM text. -/
inductive Token where
  /-- A word: letters, digits and underscores, not beginning with a digit (log 28). -/
  | word (s : String)
  /-- A decimal number, `<digit>+` of R112: how many digits it is written with, and its value. -/
  | number (digits n : Nat)
  /-- A hexadecimal number, `0x` and at least one digit (R112, R116). -/
  | hex (n : Nat)
  /-- One of the characters `[ ] ( ) < > . : + - @ *`. -/
  | mark (c : Char)
  /-- The end of a line. -/
  | newline
deriving DecidableEq, Repr

/-- Why a transcriber refuses a text. The first group is R123's list, the second this model's own (log 29). -/
inductive Refusal where
  /-- `scaled` or `unscaled` (R119). -/
  | scaleKeyword
  /-- `+ index` in a source (R123, 10_state.md R32). -/
  | indexInSource
  /-- `+ <src-reg>` in a destination (R123, 10_state.md R32). -/
  | sourceInDestination
  /-- `@` or `*` before a register, or `*` before a number or a label (R120). -/
  | destinationQualifier
  /-- Destination coordinates that are no row of Table 4 (R77). -/
  | destinationCoords
  /-- The mnemonic `OUT` (R113, 42_logic_io.md R195). -/
  | mnemonicOut
  /-- The mnemonic `RSVR2` (R113). -/
  | mnemonicReserved
  /-- A literal that does not fit 32 bits (R116). -/
  | literalTooLarge
  /-- A negative literal (R116). -/
  | literalNegative
  /-- A register number above 255. -/
  | registerNumber
  /-- A branch target above 255 (R117). -/
  | branchTarget
  /-- A branch with a literal operand (R105). -/
  | branchLiteral
  /-- A branch with a write-enabled destination (R105). -/
  | branchWrite
  /-- A branch on NOP or IO (R105). -/
  | branchOperation
  /-- A mnemonic that Table 3 does not have. Log 29. -/
  | unknownMnemonic
  /-- `@target` in a statement that is no branch: the qualifier is valid "only for branching operations" (R111, footnote 2). Log 29. -/
  | targetWithoutBranch
  /-- A branch to a register: only an absolute address is shown (R84, R93). Log 29. -/
  | branchToRegister
  /-- A branch to a name that labels no statement. Log 29. -/
  | unknownLabel
  /-- Two statements under one label. Log 29. -/
  | duplicateLabel
  /-- A character that no token of the grammar holds. Log 29. -/
  | badCharacter
  /-- A text that the grammar of R112 does not derive. Log 29. -/
  | ungrammatical
deriving DecidableEq, Repr

/-- `@` or `*` (R111, R120). -/
inductive Qualifier where
  | at
  | star
deriving DecidableEq, Repr

/-- `<src-reg>` of R112. -/
structure SrcText where
  number : Nat
  offset : Bool
  index : Bool
  neg : Vec3 Bool
  sel : Vec3 Chan
deriving DecidableEq, Repr

/-- `<target>` of R112: a number or a label name. -/
inductive Target where
  | number (n : Nat)
  | label (name : String)
deriving DecidableEq, Repr

/-- The destination position of a statement (R112): a register, perhaps qualified, or `@` and a target (`starred`: `*` stood
there instead); then the coordinates as written. -/
inductive DstText where
  | register (qualifier : Option Qualifier) (number : Nat) (offset : Bool) (plus : Option SrcText) (coords : String)
  | target (starred : Bool) (t : Target) (coords : String)
deriving DecidableEq, Repr

/-- What follows the destination (R112): two sources, or a literal with its optional `0`. -/
inductive Operands where
  | sources (a b : SrcText)
  | literal (negative : Bool) (n : Nat)
deriving DecidableEq, Repr

/-- `<statement>` of R112. -/
structure Statement where
  label : Option String
  scaled : Bool
  mnemonic : String
  branch : Option BranchType
  dst : DstText
  operands : Operands
deriving DecidableEq, Repr

end Sys2Proof.Tasm
end

