-- ==== Sys2Proof/Machine/TasmParser.lean ====
section
/-! DEFINITION. From T-ASM text to statements (30_encoding.md R112, R114 to R120): a lexer that skips white space and comments,
and a parser line by line. -/

namespace Sys2Proof.Tasm

/-! ## Lexer -/

/-- Where the lexer stands: between tokens, in a word (its characters, last first), in a decimal number (how many digits, their
value), after a single `0`, after `0x`, in a hexadecimal number, after one `/`, in a comment. -/
inductive LexState where
  | idle
  | inWord (rev : List Char)
  | inNumber (digits n : Nat)
  | afterZero
  | afterHexPrefix
  | inHex (n : Nat)
  | afterSlash
  | inComment
deriving DecidableEq, Repr

/-- A decimal digit's value. -/
def digitValue (c : Char) : Option Nat :=
  if '0'.toNat ≤ c.toNat ∧ c.toNat ≤ '9'.toNat then some (c.toNat - '0'.toNat) else none

/-- A hexadecimal digit's value (R112 `<hexdigit>`, either case). -/
def hexValue (c : Char) : Option Nat :=
  match digitValue c with
  | some d => some d
  | none =>
    if 'a'.toNat ≤ c.toNat ∧ c.toNat ≤ 'f'.toNat then some (c.toNat - 'a'.toNat + 10)
    else if 'A'.toNat ≤ c.toNat ∧ c.toNat ≤ 'F'.toNat then some (c.toNat - 'A'.toNat + 10)
    else none

/-- A character that may begin a word: a letter or an underscore (log 28). -/
def startsWord (c : Char) : Bool :=
  ('a'.toNat ≤ c.toNat && c.toNat ≤ 'z'.toNat) || ('A'.toNat ≤ c.toNat && c.toNat ≤ 'Z'.toNat) || c == '_'

/-- A character that stands for itself as a token. -/
def isMark (c : Char) : Bool := ['[', ']', '(', ')', '<', '>', '.', ':', '+', '-', '@', '*'].contains c

/-- The token that the present lexer state holds complete, if it holds one; a single `/` is none, nor is `0x` with no digit
after it (R112, R116). -/
def pendingToken : LexState → Option (List Token)
  | .idle => some []
  | .inWord rev => some [.word (String.ofList rev.reverse)]
  | .inNumber k n => some [.number k n]
  | .afterZero => some [.number 1 0]
  | .afterHexPrefix => none
  | .inHex n => some [.hex n]
  | .afterSlash => none
  | .inComment => some []

/-- What a character does when it begins something new: the tokens it gives and the state after it. -/
def startToken (c : Char) : Option (List Token × LexState) :=
  if c = '\n' then some ([.newline], .idle)
  else if c = ' ' ∨ c = '\t' ∨ c = '\r' then some ([], .idle)
  else if c = '/' then some ([], .afterSlash)
  else if c = '0' then some ([], .afterZero)
  else if startsWord c then some ([], .inWord [c])
  else if isMark c then some ([.mark c], .idle)
  else (digitValue c).map fun d => ([], .inNumber 1 d)

/-- One character (R112, R114, R116). `none`: the character fits no token. -/
def lexChar (st : LexState) (c : Char) : Option (List Token × LexState) :=
  let fresh : Option (List Token × LexState) :=
    match pendingToken st, startToken c with
    | some ts, some (us, st') => some (ts ++ us, st')
    | _, _ => none
  match st with
  | .idle => fresh
  | .inWord rev => if startsWord c || (digitValue c).isSome then some ([], .inWord (c :: rev)) else fresh
  | .inNumber k n =>
    match digitValue c with
    | some d => some ([], .inNumber (k + 1) (10 * n + d))
    | none => if startsWord c then none else fresh
  | .afterZero =>
    if c = 'x' then some ([], .afterHexPrefix)
    else
      match digitValue c with
      | some d => some ([], .inNumber 2 d)
      | none => if startsWord c then none else fresh
  | .afterHexPrefix => (hexValue c).map fun d => ([], .inHex d)
  | .inHex n =>
    match hexValue c with
    | some d => some ([], .inHex (16 * n + d))
    | none => if startsWord c then none else fresh
  | .afterSlash => if c = '/' then some ([], .inComment) else none
  | .inComment => if c = '\n' then some ([.newline], .idle) else some ([], .inComment)

/-- The tokens of a text from a lexer state on. -/
def lexFrom (st : LexState) : List Char → Option (List Token)
  | [] => pendingToken st
  | c :: cs =>
    match lexChar st c with
    | none => none
    | some (ts, st') => (lexFrom st' cs).map (ts ++ ·)

/-- The tokens of a text, comments and white space left out (R114). -/
def lex (text : String) : Except Refusal (List Token) :=
  match lexFrom .idle text.toList with
  | none => .error .badCharacter
  | some ts => .ok ts

/-- The lines of a token list. -/
def splitLines : List Token → List (List Token)
  | [] => [[]]
  | .newline :: ts => [] :: splitLines ts
  | t :: ts =>
    match splitLines ts with
    | [] => [[t]]
    | l :: ls => (t :: l) :: ls

/-! ## Parser: each function takes tokens and gives what it read and the rest, or `none` where the grammar does not fit. -/

/-- A channel letter. -/
def chanOf : Char → Option Chan
  | 'x' => some .x
  | 'y' => some .y
  | 'z' => some .z
  | _ => none

/-- The tokens of `<src-coords>` as characters: minus signs and channel letters, until `n` letters are read. -/
def coordChars : Nat → List Token → Option (List Char × List Token)
  | 0, ts => some ([], ts)
  | _ + 1, [] => none
  | n + 1, .mark '-' :: ts => (coordChars (n + 1) ts).map fun (cs, rest) => ('-' :: cs, rest)
  | n + 1, .word s :: ts =>
    let letters := s.toList
    if letters ≠ [] ∧ letters.length ≤ n + 1 ∧ letters.all (fun c => (chanOf c).isSome) = true then
      (coordChars (n + 1 - letters.length) ts).map fun (cs, rest) => (letters ++ cs, rest)
    else none
  | _ + 1, _ => none

/-- One `[-]<coord>` (R80: a minus sign stands before the letter it negates). -/
def takeCoord : List Char → Option ((Bool × Chan) × List Char)
  | '-' :: c :: cs => (chanOf c).map fun ch => ((true, ch), cs)
  | c :: cs => (chanOf c).map fun ch => ((false, ch), cs)
  | [] => none

/-- `<src-coords>` (R112): the signs and the channels of the three lanes (R78, R80). -/
def parseSrcCoords (ts : List Token) : Option ((Vec3 Bool × Vec3 Chan) × List Token) :=
  match coordChars 3 ts with
  | none => none
  | some (cs, rest) =>
    match takeCoord cs with
    | none => none
    | some ((nx, sx), cs1) =>
      match takeCoord cs1 with
      | none => none
      | some ((ny, sy), cs2) =>
        match takeCoord cs2 with
        | some ((nz, sz), []) => some ((⟨nx, ny, nz⟩, ⟨sx, sy, sz⟩), rest)
        | _ => none

/-- A decimal number from its digits. -/
def decimal : List Char → Option Nat
  | [] => none
  | cs => cs.foldl (fun acc c => acc.bind fun n => (digitValue c).map (10 * n + ·)) (some 0)

/-- A register written without brackets, `R55` (conflict C14): its number. -/
def bareRegister (s : String) : Option Nat :=
  match s.toList with
  | 'R' :: cs => decimal cs
  | 'r' :: cs => decimal cs
  | _ => none

/-- The letter that begins a bracketed register: `R` or `r` (10_state.md R20). -/
def isRegisterLetter (s : String) : Bool := s == "R" || s == "r"

/-- An optional `+ <word>`. -/
def takePlusWord (word : String) : List Token → Bool × List Token
  | .mark '+' :: .word s :: ts => if s = word then (true, ts) else (false, .mark '+' :: .word s :: ts)
  | ts => (false, ts)

/-- `<src-reg>` (R112); its number is decimal. -/
def parseSrc : List Token → Option (SrcText × List Token)
  | .word s :: .mark '.' :: ts =>
    match bareRegister s, parseSrcCoords ts with
    | some n, some ((neg, sel), rest) => some (⟨n, false, false, neg, sel⟩, rest)
    | _, _ => none
  | .word s :: .mark '[' :: .number _ n :: ts =>
    if isRegisterLetter s then
      let (offset, ts1) := takePlusWord "offset" ts
      let (index, ts2) := takePlusWord "index" ts1
      match ts2 with
      | .mark ']' :: .mark '.' :: ts3 =>
        (parseSrcCoords ts3).map fun ((neg, sel), rest) => (⟨n, offset, index, neg, sel⟩, rest)
      | _ => none
    else none
  | _ => none

/-- A destination register (R112), its qualifier already read. -/
def parseDstRegister (q : Option Qualifier) : List Token → Option (DstText × List Token)
  | .word s :: .mark '.' :: .word coords :: ts => (bareRegister s).map fun n => (.register q n false none coords, ts)
  | .word s :: .mark '[' :: .number _ n :: ts =>
    if isRegisterLetter s then
      let (offset, ts1) := takePlusWord "offset" ts
      match ts1 with
      | .mark ']' :: .mark '.' :: .word coords :: rest => some (.register q n offset none coords, rest)
      | .mark '+' :: ts2 =>
        match parseSrc ts2 with
        | some (src, .mark ']' :: .mark '.' :: .word coords :: rest) => some (.register q n offset (some src) coords, rest)
        | _ => none
      | _ => none
    else none
  | _ => none

/-- `@` or `*` and a decimal number or a label name (R112, R120); `none` where a register follows instead. A label may be spelled
like a bare register (`R1:`), and the spec leaves open which of the two `@R1.____` names: it is read as the register R1, and the
branch is then refused (R120). DESIGN CHOICE, log 29. -/
def parseTarget (starred : Bool) : List Token → Option (DstText × List Token)
  | .number _ n :: .mark '.' :: .word coords :: ts => some (.target starred (.number n) coords, ts)
  | .word s :: .mark '.' :: .word coords :: ts =>
    if (bareRegister s).isSome then none else some (.target starred (.label s) coords, ts)
  | _ => none

/-- The destination position (R112, R120). -/
def parseDst : List Token → Option (DstText × List Token)
  | .mark '@' :: ts =>
    match parseTarget false ts with
    | some r => some r
    | none => parseDstRegister (some .at) ts
  | .mark '*' :: ts =>
    match parseTarget true ts with
    | some r => some r
    | none => parseDstRegister (some .star) ts
  | ts => parseDstRegister none ts

/-- `<number>` of R112: decimal or hexadecimal. -/
def literalValue : Token → Option Nat
  | .number _ n => some n
  | .hex n => some n
  | _ => none

/-- The end of a statement with a literal: nothing, or the optional `0` (R112, R116). -/
def endsLiteral : List Token → Bool
  | [] => true
  | [.number 1 0] => true
  | _ => false

/-- What follows `I(` and perhaps a minus sign (R116), to the end of the statement. -/
def parseLiteral (negative : Bool) : List Token → Option Operands
  | t :: .mark ')' :: rest => if endsLiteral rest then (literalValue t).map (.literal negative ·) else none
  | _ => none

/-- What follows the destination, to the end of the statement (R112, R116). -/
def parseOperands : List Token → Option Operands
  | .word "I" :: .mark '(' :: .mark '-' :: ts => parseLiteral true ts
  | .word "I" :: .mark '(' :: ts => parseLiteral false ts
  | ts =>
    match parseSrc ts with
    | none => none
    | some (a, rest) =>
      match parseSrc rest with
      | some (b, []) => some (.sources a b)
      | _ => none

/-- The branch types by name (R118). -/
def branchTypeNamed (s : String) : Option BranchType :=
  if s = "ALWAYS" then some .always
  else if s = "ZERO" then some .zero
  else if s = "NOT_ZERO" then some .notZero
  else if s = "SIGN" then some .sign
  else if s = "NOT_SIGN" then some .notSign
  else if s = "ZERO_OR_SIGN" then some .zeroOrSign
  else if s = "ZERO_OR_NOT_SIGN" then some .zeroOrNotSign
  else none

/-- An optional `<BRANCH.TYPE>` (R118); `none` where a `<` begins anything else. -/
def parseBranch : List Token → Option (Option BranchType × List Token)
  | .mark '<' :: ts =>
    match ts with
    | .word b :: .mark '.' :: .word ty :: .mark '>' :: rest =>
      if b = "BRANCH" then (branchTypeNamed ty).map fun t => (some t, rest) else none
    | _ => none
  | ts => some (none, ts)

/-- A statement without its label (R112). -/
def parseStatement (label : Option String) (ts : List Token) : Option Statement :=
  let (scaled, ts1) : Bool × List Token :=
    match ts with
    | .word s :: rest => if s = "scaled" ∨ s = "unscaled" then (true, rest) else (false, ts)
    | _ => (false, ts)
  match ts1 with
  | .word mnemonic :: ts2 =>
    match parseBranch ts2 with
    | none => none
    | some (branch, ts3) =>
      match parseDst ts3 with
      | none => none
      | some (dst, ts4) => (parseOperands ts4).map fun ops => ⟨label, scaled, mnemonic, branch, dst, ops⟩
  | _ => none

/-- The statements of the lines (R112: a label stands before its statement, on the same line or on the line before); `pending` is
a label that still waits for its statement. -/
def parseLines (pending : Option String) : List (List Token) → Option (List Statement)
  | [] => if pending.isNone then some [] else none
  | line :: lines =>
    match pending, line with
    | p, [] => parseLines p lines
    | none, [.word l, .mark ':'] => parseLines (some l) lines
    | none, .word l :: .mark ':' :: ts =>
      match parseStatement (some l) ts, parseLines none lines with
      | some st, some sts => some (st :: sts)
      | _, _ => none
    | p, ts =>
      match parseStatement p ts, parseLines none lines with
      | some st, some sts => some (st :: sts)
      | _, _ => none

/-- A T-ASM text as its list of statements (R111, R112); the list holds at least one. -/
def parse (text : String) : Except Refusal (List Statement) :=
  match lex text with
  | .error r => .error r
  | .ok ts =>
    match parseLines none (splitLines ts) with
    | none => .error .ungrammatical
    | some [] => .error .ungrammatical
    | some (st :: sts) => .ok (st :: sts)

end Sys2Proof.Tasm
end

