-- ==== Sys2Proof/Machine/Tasm.lean ====
section
/-! DEFINITION. From statements to words (30_encoding.md R122, R123): label values, the instruction of a statement, the words of a
text. -/

namespace Sys2Proof.Tasm

/-- The labels and their values (R117): the address of the statement each stands before, counting statements from `a`. -/
def labelsFrom (a : Nat) : List Statement → List (String × Nat)
  | [] => []
  | st :: sts =>
    match st.label with
    | none => labelsFrom (a + 1) sts
    | some l => (l, a) :: labelsFrom (a + 1) sts

/-- The value of a label. -/
def labelValue (labels : List (String × Nat)) (name : String) : Option Nat :=
  (labels.find? fun p => p.1 == name).map (·.2)

/-- `dst_sel` (R77, Table 4); four underscores are the all-zero row too (conflict C8). -/
def enablesOf (coords : String) : Option (Vec3 Bool) :=
  if coords = "___" ∨ coords = "____" then some ⟨false, false, false⟩
  else if coords = "__z" then some ⟨false, false, true⟩
  else if coords = "_y_" then some ⟨false, true, false⟩
  else if coords = "_yz" then some ⟨false, true, true⟩
  else if coords = "x__" then some ⟨true, false, false⟩
  else if coords = "x_z" then some ⟨true, false, true⟩
  else if coords = "xy_" then some ⟨true, true, false⟩
  else if coords = "xyz" then some ⟨true, true, true⟩
  else none

/-- The operation of a mnemonic (R113, Table 3), or why it is refused (R123). -/
def operationOf (mnemonic : String) : Except Refusal OpcodeClass :=
  if mnemonic = "NOP" then .ok .nop
  else if mnemonic = "ADD" then .ok (.alu .add)
  else if mnemonic = "DIV" then .ok (.alu .div)
  else if mnemonic = "MUL" then .ok (.alu .mul)
  else if mnemonic = "SQRT" then .ok (.alu .sqrt)
  else if mnemonic = "LOGIC" then .ok (.alu .logic)
  else if mnemonic = "IO" then .ok .io
  else if mnemonic = "OUT" then .error .mnemonicOut
  else if mnemonic = "RSVR2" then .error .mnemonicReserved
  else .error .unknownMnemonic

/-- A number that must fit an 8-bit field. -/
def fit8 (r : Refusal) (n : Nat) : Except Refusal (BitVec 8) := if n ≤ 255 then .ok (BitVec.ofNat 8 n) else .error r

/-- A source operand (R122: its MODE bit, its Table 6 and Table 5 rows, its number); the order of its checks is log 34. -/
def sourceOf (t : SrcText) : Except Refusal Src :=
  if t.index then .error .indexInSource
  else
    match fit8 .registerNumber t.number with
    | .error r => .error r
    | .ok n => .ok ⟨n, t.offset, t.neg, t.sel⟩

/-- A register destination (R122, R123); the order of its checks is log 34. -/
def registerOf (t : DstText) : Except Refusal Dst :=
  match t with
  | .target true _ _ => .error .destinationQualifier
  | .target false _ _ => .error .targetWithoutBranch
  | .register (some _) _ _ _ _ => .error .destinationQualifier
  | .register none _ _ (some _) _ => .error .sourceInDestination
  | .register none n offset none coords =>
    match fit8 .registerNumber n, enablesOf coords with
    | .error r, _ => .error r
    | .ok _, none => .error .destinationCoords
    | .ok i, some we => .ok ⟨i, offset, we⟩

/-- A branch's target (R84, R117, R122, R123); the order of its checks is log 34. -/
def targetOf (labels : List (String × Nat)) (t : DstText) : Except Refusal (BitVec 8) :=
  match t with
  | .register (some _) _ _ _ _ => .error .destinationQualifier
  | .register none _ _ _ _ => .error .branchToRegister
  | .target true _ _ => .error .destinationQualifier
  | .target false tgt coords =>
    match enablesOf coords with
    | none => .error .destinationCoords
    | some we =>
      if we.x || we.y || we.z then .error .branchWrite
      else
        match tgt with
        | .number n => fit8 .branchTarget n
        | .label l =>
          match labelValue labels l with
          | none => .error .unknownLabel
          | some n => fit8 .branchTarget n

/-- What follows the destination, with its numbers checked (R116, R122). -/
inductive ReadOperands where
  | sources (a b : Src)
  | literal (imm : Word)
deriving DecidableEq, Repr

/-- The operands of a statement (R116, R122, R123); the order of their checks is log 34. -/
def operandsOf (o : Operands) : Except Refusal ReadOperands :=
  match o with
  | .literal true _ => .error .literalNegative
  | .literal false n => if n < 2 ^ 32 then .ok (.literal (BitVec.ofNat 32 n)) else .error .literalTooLarge
  | .sources a b =>
    match sourceOf a, sourceOf b with
    | .error r, _ => .error r
    | .ok _, .error r => .error r
    | .ok va, .ok vb => .ok (.sources va vb)

/-- The instruction of a statement that is no branch (R122): EOF and SCOP/LOP have no syntax and are 0; NOP is
the all-zero word whatever its operands (R94). -/
def plainInstr (op : OpcodeClass) (d : Dst) (o : ReadOperands) : Except Refusal Instr :=
  match op, o with
  | .nop, _ => .ok (.nop false)
  | .alu op, .sources a b => .ok (.ofRForm op ⟨false, 0⟩ d a b)
  | .alu op, .literal imm => .ok (.ofIForm op ⟨false, 0⟩ d imm)
  | .io, .sources a b => .ok (.io ⟨false, 0⟩ d a b)
  | .io, .literal imm => .ok (.ioI ⟨false, 0⟩ d imm)
  | .rsvr2, _ => .error .mnemonicReserved

/-- The instruction of a branch statement (R118, R122, R123). -/
def branchInstr (op : OpcodeClass) (ty : BranchType) (t : BitVec 8) (o : ReadOperands) : Except Refusal Instr :=
  match op, o with
  | .alu op, .sources a b => .ok (.ofBranch op ty ⟨false, 0⟩ t a b)
  | .alu _, .literal _ => .error .branchLiteral
  | .nop, _ => .error .branchOperation
  | .io, _ => .error .branchOperation
  | .rsvr2, _ => .error .mnemonicReserved

/-- The instruction of a statement (R122), or why a transcriber refuses it (R123). Where several reasons apply, the first of scale
keyword, mnemonic, operands, destination, branch is named: R123 gives no order. DESIGN CHOICE, log 34. -/
def instrOf (labels : List (String × Nat)) (st : Statement) : Except Refusal Instr :=
  if st.scaled then .error .scaleKeyword
  else
    match operationOf st.mnemonic, operandsOf st.operands with
    | .error r, _ => .error r
    | .ok _, .error r => .error r
    | .ok op, .ok o =>
      match st.branch with
      | none =>
        match registerOf st.dst with
        | .error r => .error r
        | .ok d => plainInstr op d o
      | some ty =>
        match targetOf labels st.dst with
        | .error r => .error r
        | .ok t => branchInstr op ty t o

/-- The word of a statement (R122). -/
def wordOf (labels : List (String × Nat)) (st : Statement) : Except Refusal Insn :=
  match instrOf labels st with
  | .error r => .error r
  | .ok i => .ok (encode i)

/-- The words of statements, in order; the first refused statement names the reason (DESIGN CHOICE, log 34). -/
def wordsOf (labels : List (String × Nat)) : List Statement → Except Refusal (List Insn)
  | [] => .ok []
  | st :: sts =>
    match wordOf labels st, wordsOf labels sts with
    | .error r, _ => .error r
    | .ok _, .error r => .error r
    | .ok w, .ok ws => .ok (w :: ws)

/-- The labels differ from one another (log 29). -/
def labelsDistinct : List (String × Nat) → Bool
  | [] => true
  | (l, _) :: rest => rest.all (fun p => p.1 != l) && labelsDistinct rest

/-- The program of a T-ASM text (R5, R117, R122): the words of its statements, the first for address 0; refused where a label's
value does not fit DSTINDEX (R117). Where several reasons apply, the grammar comes first, then the labels, then the statements
(DESIGN CHOICE, log 34). -/
def assemble (text : String) : Except Refusal (List Insn) :=
  match parse text with
  | .error r => .error r
  | .ok sts =>
    let labels := labelsFrom 0 sts
    if !labelsDistinct labels then .error .duplicateLabel
    else if labels.any (fun p => decide (255 < p.2)) then .error .branchTarget
    else wordsOf labels sts

end Sys2Proof.Tasm
end

