-- ==== Sys2Proof/Machine/Launch.lean ====
section
/-! DEFINITION. The launch (70_reset_and_hazards.md R270, R271): what the host gives before a run, and the state it starts from. -/

namespace Sys2Proof.Machine

/-- A launch: "the triple (program, FO, optional initial register contents)" (R271). `initial` lists the channels that the launch
gives a value: register index, channel, the value's unsigned reading. -/
structure Launch where
  program : List Insn
  fo : BitVec 8
  initial : List (Nat × Chan × Nat)
deriving DecidableEq, Repr

/-- The words of a program at rising instruction addresses from `a` up (R271, 20_memory.md R51). -/
def loadFrom (a : Nat) : List Insn → Memory
  | [] => []
  | w :: ws => (a, w) :: loadFrom (a + 1) ws

/-- One channel given a value; it counts as written (R271). -/
def setChannel (r : Reg) (c : Chan) (v : Nat) : Reg :=
  match c with
  | .x => { r with x := ⟨v, true⟩ }
  | .y => { r with y := ⟨v, true⟩ }
  | .z => { r with z := ⟨v, true⟩ }

/-- The register file with the launch's initial contents; `none` where an index is not below REG_COUNT or a value has more than W
bits (log 31). Of several values for one channel the last counts (DESIGN CHOICE, log 31). -/
def setInitial (W : Nat) : List (Nat × Chan × Nat) → List Reg → Option (List Reg)
  | [], regs => some regs
  | (i, c, v) :: rest, regs =>
    match regs[i]? with
    | none => none
    | some r => if v < 2 ^ W then setInitial W rest (regs.set i (setChannel r c v)) else none

/-- The state that a launch starts from (R270, R271, 10_state.md R36); `none` where the program has more than IMEM_SIZE words or
the initial contents name no register or give more than W bits. -/
def launch (cfg : Config) (l : Launch) : Option State :=
  if l.program.length ≤ cfg.imemSize then
    (setInitial cfg.width l.initial (List.replicate cfg.regCount Reg.unwritten)).map fun regs =>
      { cfg := cfg, regs := regs, pc := cfg.entryPc, fo := l.fo, imem := loadFrom 0 l.program, halted := false,
        refused := none, ioLog := [], tick := 0 }
  else none

/-- A launch whose program is an image of bytes, read under IMAGE_BYTE_ORDER (20_memory.md R54); `none` also where the image is no
whole number of words. -/
def launchImage (cfg : Config) (image : List Byte) (fo : BitVec 8) (initial : List (Nat × Chan × Nat)) : Option State :=
  match wordsOfImage cfg.imageByteOrder image with
  | none => none
  | some program => launch cfg ⟨program, fo, initial⟩

end Sys2Proof.Machine
end

