-- ==== Sys2Proof/Safety.lean ====
section
/-! DEFINITION. The terms in which claims speak of runs: when a run is over, when a machine is stuck, what a run of several steps
leaves, the invariant of the state, and when two states are the same but for what unwritten channels hold. -/

namespace Sys2Proof.Machine

/-- A run is over, with this final state (70_reset_and_hazards.md R276); a refused state is never final (60_exceptions.md R243). -/
def State.isFinal (s : State) : Bool := s.halted && s.refused.isNone

/-- The machine is stuck (R277, 10_state.md R27): not over, not refused, and nothing is loaded where `pc` points. -/
def State.isStuck (s : State) : Bool := !s.halted && s.refused.isNone && (ifetch s s.pc).isNone

/-- What the spec's run makes of one step: the next state; the same state where there is no step; and the mark `refused`, which no
later step clears, where the step is refused (R243, R277; log 16). -/
def advanceRun (s : State) : State :=
  match step s with
  | .next t => t
  | .fault _ => s
  | .refused r => markRefused r s

/-- A run of `n` steps (R243, R276, R277). -/
def runFor : Nat → State → State
  | 0, s => s
  | n + 1, s => runFor n (advanceRun s)

/-- One channel of one register; `none` where there is no such register. -/
def State.channel (s : State) (i : Nat) (c : Chan) : Option Channel := s.regs[i]?.map (·.get c)

/-- The source's register exists: its effective index is below REG_COUNT (40_operand_datapath.md R132). -/
def State.Readable (s : State) (o : Src) : Prop := effIndex s o.addr o.displaced < s.regs.length

/-- The destination names no register (no write enable) or one below REG_COUNT (R132). -/
def State.Writable (s : State) (d : Dst) : Prop :=
  anyEnabled d.we = true → effIndex s d.index d.displaced < s.regs.length

/-- From `s` to `t` the enabled channels of the destination take the lanes of `r`, and every other channel of every register keeps
its content (R136). -/
def Writes {W : Nat} (s t : State) (d : Dst) (r : Vec W) : Prop :=
  t.regs.length = s.regs.length ∧
    ∀ i c, t.channel i c =
      if i = effIndex s d.index d.displaced ∧ d.we.get c = true ∧ i < s.regs.length then some ⟨(r.get c).toNat, true⟩
      else s.channel i c

/-- From `s` to `t` the program counter goes to `target`, EOF = 1 ends the run, the history grows by `events`, the model's count of
instructions goes up by one, and everything else but the registers is as it was (R138, R139). -/
structure Advances (s t : State) (eof : Bool) (target : Nat) (events : List IoEvent) : Prop where
  counter : t.pc = target
  halted : t.halted = (s.halted || eof)
  history : t.ioLog = s.ioLog ++ events
  tick : t.tick = s.tick + 1
  configuration : t.cfg = s.cfg
  offset : t.fo = s.fo
  memory : t.imem = s.imem
  mark : t.refused = s.refused

/-- The destination an instruction names (R131): none for NOP, a branch and RSVR2. -/
def destinationOf : Instr → Option Dst
  | .nop _ => none
  | .add _ d _ _ => some d
  | .div _ d _ _ => some d
  | .mul _ d _ _ => some d
  | .sqrt _ d _ _ => some d
  | .logic _ d _ _ => some d
  | .io _ d _ _ => some d
  | .addI _ d _ => some d
  | .divI _ d _ => some d
  | .mulI _ d _ => some d
  | .sqrtI _ d _ => some d
  | .logicI _ d _ => some d
  | .ioI _ d _ => some d
  | .addBranchAlways _ _ _ _ | .addBranchZero _ _ _ _ | .addBranchNotZero _ _ _ _ | .addBranchSign _ _ _ _ | .addBranchNotSign _ _ _ _ | .addBranchZeroOrSign _ _ _ _ | .addBranchZeroOrNotSign _ _ _ _ => none
  | .divBranchAlways _ _ _ _ | .divBranchZero _ _ _ _ | .divBranchNotZero _ _ _ _ | .divBranchSign _ _ _ _ | .divBranchNotSign _ _ _ _ | .divBranchZeroOrSign _ _ _ _ | .divBranchZeroOrNotSign _ _ _ _ => none
  | .mulBranchAlways _ _ _ _ | .mulBranchZero _ _ _ _ | .mulBranchNotZero _ _ _ _ | .mulBranchSign _ _ _ _ | .mulBranchNotSign _ _ _ _ | .mulBranchZeroOrSign _ _ _ _ | .mulBranchZeroOrNotSign _ _ _ _ => none
  | .sqrtBranchAlways _ _ _ _ | .sqrtBranchZero _ _ _ _ | .sqrtBranchNotZero _ _ _ _ | .sqrtBranchSign _ _ _ _ | .sqrtBranchNotSign _ _ _ _ | .sqrtBranchZeroOrSign _ _ _ _ | .sqrtBranchZeroOrNotSign _ _ _ _ => none
  | .logicBranchAlways _ _ _ _ | .logicBranchZero _ _ _ _ | .logicBranchNotZero _ _ _ _ | .logicBranchSign _ _ _ _ | .logicBranchNotSign _ _ _ _ | .logicBranchZeroOrSign _ _ _ _ | .logicBranchZeroOrNotSign _ _ _ _ => none
  | .rsvr2 _ => none

/-- An event that an IO instruction can have recorded (42_logic_io.md R192, 40_operand_datapath.md R132): its address is below
IMEM_SIZE, its operands are vectors of W bits, and it names a register, one below REG_COUNT, exactly when a write enable is set. -/
def IoEvent.ok (cfg : Config) (e : IoEvent) : Bool :=
  decide (e.pc < cfg.imemSize) && e.a.below (2 ^ cfg.width) && e.b.below (2 ^ cfg.width) &&
    match e.dst with
    | none => !anyEnabled e.we
    | some i => anyEnabled e.we && decide (i < cfg.regCount)

/-- The invariant of the state: the memory is in canonical form; there are REG_COUNT registers (10_state.md R20),
and a channel holds W bits (R21); `pc` is at most
IMEM_SIZE or a branch target (R26, R27); every recorded event is one that can have happened, and none has under IO_MODEL = refuse. -/
structure State.Inv (s : State) : Prop where
  memory : s.imem.wf = true
  registers : s.regs.length = s.cfg.regCount
  values : ∀ r ∈ s.regs, ∀ c : Chan, (r.get c).value < 2 ^ s.cfg.width
  counter : s.pc ≤ max s.cfg.imemSize 255
  events : ∀ e ∈ s.ioLog, e.ok s.cfg = true
  silent : s.cfg.ioModel = .refuse → s.ioLog = []

/-- Two channels that no reader can tell apart (10_state.md R23): both unwritten, or both written with the same value. -/
def Channel.Agree (a b : Channel) : Prop := a.written = b.written ∧ (a.written = true → a.value = b.value)

/-- Two registers that agree channel by channel. -/
def Reg.Agree (a b : Reg) : Prop := Channel.Agree a.x b.x ∧ Channel.Agree a.y b.y ∧ Channel.Agree a.z b.z

/-- Two states that are the same but for the values that lie under the mark "unwritten". -/
def State.Agree (s t : State) : Prop := List.Forall₂ Reg.Agree s.regs t.regs ∧ t = { s with regs := t.regs }

/-- Two steps with the same outcome, but for the values under the mark "unwritten". -/
def StepResult.Agree : StepResult → StepResult → Prop
  | .next s, .next t => State.Agree s t
  | .fault r, .fault r' => r = r'
  | .refused r, .refused r' => r = r'
  | _, _ => False

end Sys2Proof.Machine
end

