-- ==== Sys2Proof/Certificates/Slice0/Obligations.lean ====
section
/-! DEFINITION. The statements about the model, for the provers. A statement whose docstring names a decision D<n> of
92_eei_decisions.md or a log entry rests there on a choice (the spec's own, or this model's), not on the source. -/

open Sys2Proof Sys2Proof.Machine

/-- Decoding the encoding of any well-formed instruction gives it back. For every configuration and every well-formed
instruction i whose EOF bit and SCOP/LOP the configuration admits (EOF = 0 or EOF_MODEL ends the run, log 13; SCOP/LOP = 0
or SCOP_TABLE supplied, log 18), the decoder reads i from encode i. BRANCH_MODE_BIT47_IGNORED may have either value. For
RSVR2 this rests on the choice of log 17: R109 refuses OPCODE 111 in the decoder, this model decodes it to a constructor and
refuses in its meaning. -/
def Obligations.DecodeEncodeRoundTrip : Prop :=
  ∀ (cfg : Config) (i : Instr), i.wellFormed = true → i.admittedBy cfg = true → decode cfg (encode i) = .ok i

/-- Every admitted word is the encoding of the instruction it decodes to. Where bit 47 of a branch is not ignored, a word that
decodes to an instruction i is the word encode i, i is well formed, and the configuration admits its EOF and SCOP/LOP: no
bit of an admitted word is dropped, and no two admitted words decode alike. (That other words are refused is the choice of
decisions D15 to D17 and D20 to D26, log 25; that a word with OPCODE 111 decodes to RSVR2 at all is log 17.) -/
def Obligations.EncodeDecodeRoundTrip : Prop :=
  ∀ (cfg : Config) (w : Insn) (i : Instr), cfg.branchModeBit47Ignored = false → decode cfg w = .ok i →
    encode i = w ∧ i.wellFormed = true ∧ i.admittedBy cfg = true

/-- An admitted word selects its instruction's row of the opcode table and no other. Where bit 47 of a branch is not ignored, a
word with SCOP/LOP = 0 (the only kind without SCOP_TABLE; the table's masks are those of the default parameters) that
decodes to i selects the row of i, which is among the 49 rows of opcode_table.json, and selects no other of them. -/
def Obligations.AdmittedWordSelectsItsOpcodeRowOnly : Prop :=
  ∀ (cfg : Config) (w : Insn) (i : Instr), cfg.branchModeBit47Ignored = false → fieldScop w = 0 → decode cfg w = .ok i →
    opcodeRow i ∈ opcodeTable ∧ (opcodeRow i).selects w = true ∧ ∀ r ∈ opcodeTable, r.selects w = true → r = opcodeRow i

/-- What the decoder admits obeys every field constraint of the spec. A word that decodes to an instruction has bits 53:51 = 0;
SCOP/LOP = 0 without SCOP_TABLE; EOF = 0 under EOF_MODEL = refuse. Unless its OPCODE is 111 (log 17): with BBIT = 0 it has
BOP = 0; with OPCODE = 000 every bit but EOF is 0; with BBIT = 1 it has IMM = 0, BOP other than 111, no write enable, OPCODE
one of ADD, DIV, MUL, SQRT, LOGIC, and MODE bit 47 = 0 unless that bit is ignored; with IMM = 1 it has MODE 100 or 101 and
SIGN1X = SIGN1Y = 0; with IMM = 0 none of its six swizzle codes is 11. These are the spec's own decisions D15 to D18, D20,
D21, D23 to D26 (log 25). -/
def Obligations.AdmittedWordsObeyTheFieldConstraints : Prop :=
  ∀ (cfg : Config) (w : Insn) (i : Instr), decode cfg w = .ok i →
    fieldReserved w = 0 ∧ (cfg.scopTable = .absent → fieldScop w = 0) ∧ (cfg.eofModel = .refuse → fieldEof w = false) ∧
    (fieldOpcode w ≠ 7 →
      (fieldBbit w = false → fieldBop w = 0) ∧
      (fieldOpcode w = 0 → w &&& 0xFBFFFFFFFFFFFFFF = 0) ∧
      (fieldBbit w = true → fieldImm w = false ∧ fieldBop w ≠ 7 ∧ fieldWe w = ⟨false, false, false⟩ ∧
        fieldOpcode w ≠ 0 ∧ fieldOpcode w ≠ 6 ∧ (cfg.branchModeBit47Ignored = false → w.getLsbD 47 = false)) ∧
      (fieldImm w = true → (fieldMode w = 4 ∨ fieldMode w = 5) ∧ (fieldSign1 w).x = false ∧ (fieldSign1 w).y = false) ∧
      (fieldImm w = false → ∀ c : Chan, (fieldSwz1 w).get c ≠ 3 ∧ (fieldSwz0 w).get c ≠ 3))

/-- The five worked encodings of the source and the NOP of Table 7 decode to their statements. The five words that the source
prints, and the all-zero word, decode under the spec's default parameters to the instructions printed beside them. -/
def Obligations.WorkedEncodingsDecode : Prop :=
  decode Config.ofSpec 0x0000000000000000 = .ok (.nop false) ∧
  decode Config.ofSpec 0x8001880000000001 = .ok (.addI ⟨false, 0⟩ ⟨0, false, ⟨false, true, false⟩⟩ 1) ∧
  decode Config.ofSpec 0x8001840000000002 = .ok (.addI ⟨false, 0⟩ ⟨0, false, ⟨false, false, true⟩⟩ 2) ∧
  decode Config.ofSpec 0x8001840800000000 = .ok (.addI ⟨false, 0⟩ ⟨2, false, ⟨false, false, true⟩⟩ 0) ∧
  decode Config.ofSpec 0x8001B02800000004 = .ok (.addI ⟨false, 0⟩ ⟨10, true, ⟨true, false, false⟩⟩ 4) ∧
  decode Config.ofSpec 0x02810090006FC038 =
    .ok (.addBranchNotZero ⟨false, 0⟩ 36 ⟨55, false, ⟨false, false, false⟩, ⟨.x, .y, .z⟩⟩
      ⟨56, false, ⟨true, true, true⟩, ⟨.x, .y, .z⟩⟩)

/-- Words written out from the encoding tables decode to the instructions they stand for. One word of each kind of row, written
out bit by bit from the field tables (95_test_vectors.md 2, 3.1, 3.5, 3.6, 4.7), decodes to its instruction under the
configuration of reset: R-form DIV, SQRT, LOGIC and IO, I-form MUL and IO, a subtraction with all three operands displaced,
a swizzled addition, a displaced branch, MUL and LOGIC branches, NOP with EOF. -/
def Obligations.DerivedEncodingsDecode : Prop :=
  let xyz : Vec3 Chan := ⟨.x, .y, .z⟩
  let pos : Vec3 Bool := ⟨false, false, false⟩
  let all : Vec3 Bool := ⟨true, true, true⟩
  decode Config.standard 0x00021C0C00020002 = .ok (.div ⟨false, 0⟩ ⟨3, false, all⟩ ⟨1, false, pos, xyz⟩ ⟨2, false, pos, xyz⟩) ∧
  decode Config.standard 0x00041C0C00020002 = .ok (.sqrt ⟨false, 0⟩ ⟨3, false, all⟩ ⟨1, false, pos, xyz⟩ ⟨2, false, pos, xyz⟩) ∧
  decode Config.standard 0x00051C0C00020002 = .ok (.logic ⟨false, 0⟩ ⟨3, false, all⟩ ⟨1, false, pos, xyz⟩ ⟨2, false, pos, xyz⟩) ∧
  decode Config.standard 0x0006FC000014000C = .ok (.io ⟨false, 0⟩ ⟨0, true, all⟩ ⟨10, true, pos, xyz⟩ ⟨12, true, pos, xyz⟩) ∧
  decode Config.standard 0x80039C0C00000007 = .ok (.mulI ⟨false, 0⟩ ⟨3, false, all⟩ 7) ∧
  decode Config.standard 0x80069C0C00000001 = .ok (.ioI ⟨false, 0⟩ ⟨3, false, all⟩ 1) ∧
  decode Config.standard 0x0001FC340019C00B = .ok (.add ⟨false, 0⟩ ⟨13, true, all⟩ ⟨12, true, pos, xyz⟩ ⟨11, true, all, xyz⟩) ∧
  decode Config.standard 0x0001080C14060A00 =
    .ok (.add ⟨false, 0⟩ ⟨3, false, ⟨false, true, false⟩⟩ ⟨3, false, pos, ⟨.x, .x, .x⟩⟩ ⟨0, false, pos, ⟨.x, .x, .x⟩⟩) ∧
  decode Config.standard 0x02816090006FC038 =
    .ok (.addBranchNotZero ⟨false, 0⟩ 36 ⟨55, true, pos, xyz⟩ ⟨56, true, all, xyz⟩) ∧
  decode Config.standard 0x0243032000020002 = .ok (.mulBranchZero ⟨false, 0⟩ 200 ⟨1, false, pos, xyz⟩ ⟨2, false, pos, xyz⟩) ∧
  decode Config.standard 0x0245009000020002 = .ok (.logicBranchZero ⟨false, 0⟩ 36 ⟨1, false, pos, xyz⟩ ⟨2, false, pos, xyz⟩) ∧
  decode Config.standard 0x0400000000000000 = .ok (.nop true)

/-- The 24 rows of Table 5 select the channels their strings name. For each of the 24 rows of Table 5 the decoder reads from the
codes SWZZ*X, SWZZ*Y, SWZZ*Z the three channels that the row's string names, in lane order. -/
def Obligations.SwizzleCodesFollowTableFive : Prop :=
  [((0, 0, 0), Vec3.mk Chan.x Chan.y Chan.z), ((0, 0, 1), ⟨.x, .y, .y⟩), ((0, 0, 2), ⟨.x, .y, .x⟩), ((0, 1, 0), ⟨.x, .z, .z⟩),
    ((0, 1, 1), ⟨.x, .z, .y⟩), ((0, 1, 2), ⟨.x, .z, .x⟩), ((0, 2, 0), ⟨.x, .x, .z⟩), ((0, 2, 1), ⟨.x, .x, .y⟩),
    ((0, 2, 2), ⟨.x, .x, .x⟩), ((1, 0, 0), ⟨.z, .y, .z⟩), ((1, 0, 1), ⟨.z, .y, .y⟩), ((1, 0, 2), ⟨.z, .y, .x⟩),
    ((1, 1, 0), ⟨.z, .z, .z⟩), ((1, 1, 1), ⟨.z, .z, .y⟩), ((1, 2, 0), ⟨.z, .x, .z⟩), ((2, 0, 0), ⟨.y, .y, .z⟩),
    ((2, 0, 1), ⟨.y, .y, .y⟩), ((2, 0, 2), ⟨.y, .y, .x⟩), ((2, 1, 0), ⟨.y, .z, .z⟩), ((2, 1, 1), ⟨.y, .z, .y⟩),
    ((2, 1, 2), ⟨.y, .z, .x⟩), ((2, 2, 0), ⟨.y, .x, .z⟩), ((2, 2, 1), ⟨.y, .x, .y⟩), ((2, 2, 2), ⟨.y, .x, .x⟩)].all
    (fun (row : (BitVec 2 × BitVec 2 × BitVec 2) × Vec3 Chan) =>
      swizzleOf ⟨row.1.1, row.1.2.1, row.1.2.2⟩ == some row.2) = true

/-- BBIT and BOP of every encoded instruction are those of Table 18. Each of the 35 branch instructions has BBIT = 1 and the BOP
value that Table 18 gives its type; every other instruction but the reserved RSVR2 has BBIT = 0 and BOP = 0. -/
def Obligations.BranchFieldsOfEncodedWords : Prop :=
  (∀ (op : AluOp) (ctl : Control) (t : BitVec 8) (a b : Src),
    ∀ row ∈ [(BranchType.always, (0 : BitVec 3)), (.zero, 1), (.notZero, 2), (.sign, 3), (.notSign, 4), (.zeroOrSign, 5),
        (.zeroOrNotSign, 6)],
      fieldBbit (encode (.ofBranch op row.1 ctl t a b)) = true ∧ fieldBop (encode (.ofBranch op row.1 ctl t a b)) = row.2) ∧
  (∀ (op : AluOp) (ctl : Control) (d : Dst) (a b : Src) (imm : Word),
    ∀ i ∈ [Instr.nop ctl.eof, .ofRForm op ctl d a b, .io ctl d a b, .ofIForm op ctl d imm, .ioI ctl d imm],
      fieldBbit (encode i) = false ∧ fieldBop (encode i) = 0)

/-- MODE says which operands are displaced, by format. In every R-form word (ADD, DIV, MUL, SQRT, LOGIC, IO) bit 47 is set
exactly when the destination is displaced, bit 46 exactly when source 1 is, bit 45 exactly when source 0 is; in every I-form
word MODE is 100 with an undisplaced and 101 with a displaced destination. -/
def Obligations.ModeDisplacesOperandsPerFormat : Prop :=
  (∀ (op : AluOp) (ctl : Control) (d : Dst) (a b : Src), ∀ i ∈ [Instr.ofRForm op ctl d a b, .io ctl d a b],
    (encode i).getLsbD 47 = d.displaced ∧ (encode i).getLsbD 46 = a.displaced ∧ (encode i).getLsbD 45 = b.displaced) ∧
  (∀ (op : AluOp) (ctl : Control) (d : Dst) (imm : Word), ∀ i ∈ [Instr.ofIForm op ctl d imm, .ioI ctl d imm],
    fieldMode (encode i) = if d.displaced then 5 else 4)

/-- The destination selectors of T-ASM and the write-enable bits are those of Table 4. The eight strings of Table 4 set WEX (bit
44), WEY (43), WEZ (42) as its rows say, four underscores being the all-zero row too; every other string is no destination
selector, and a register destination or a branch target written with it is refused; and the encoded word of every R-form and
I-form instruction carries the three enables in bits 44, 43, 42. The eight rows and the bits are R77; that every other
string is refused, strings that the grammar derives (x___, xyz_) among them, is decision D34 with the choice of log 29 (four
underscores only as the all-zero row), not R77; that the coordinates name the reason where the target is refused too is log
34. -/
def Obligations.DestinationSelectorsFollowTableFour : Prop :=
  (["___", "__z", "_y_", "_yz", "x__", "x_z", "xy_", "xyz", "____"].map Tasm.enablesOf =
    [some ⟨false, false, false⟩, some ⟨false, false, true⟩, some ⟨false, true, false⟩, some ⟨false, true, true⟩,
      some ⟨true, false, false⟩, some ⟨true, false, true⟩, some ⟨true, true, false⟩, some ⟨true, true, true⟩,
      some ⟨false, false, false⟩]) ∧
  (∀ coords : String, coords ∉ ["___", "__z", "_y_", "_yz", "x__", "x_z", "xy_", "xyz", "____"] →
    Tasm.enablesOf coords = none ∧
    (∀ (n : Nat) (offset : Bool), n ≤ 255 → Tasm.registerOf (.register none n offset none coords) = .error .destinationCoords) ∧
    ∀ labels target, Tasm.targetOf labels (.target false target coords) = .error .destinationCoords) ∧
  ∀ (op : AluOp) (ctl : Control) (d : Dst) (a b : Src) (imm : Word),
    ∀ i ∈ [Instr.ofRForm op ctl d a b, .io ctl d a b, .ofIForm op ctl d imm, .ioI ctl d imm],
      (encode i).getLsbD 44 = d.we.x ∧ (encode i).getLsbD 43 = d.we.y ∧ (encode i).getLsbD 42 = d.we.z

/-- A register source is swizzled, then negated lane by lane. For a source whose effective index is below REG_COUNT the prepared
operand exists, and its lane c is the channel that the swizzle selects for c (under NO_HAZARDS its value if something wrote
it; the draw of this instruction, this source and this lane if nothing has, or if NO_HAZARDS is not assumed), negated in
two's complement if the lane's sign bit is set. Two's complement is decision D6, the draw decision D19 (log 2): a free
value, of which nothing can be proved; that without NO_HAZARDS every read is a draw is the model's choice (log 21). -/
def Obligations.SourceOperandIsSwizzledThenNegated : Prop :=
  ∀ (s : State) (site : DrawSite) (o : Src), s.Readable o →
    ∃ v r, sourceOperand s site o = some v ∧ s.regs[effIndex s o.addr o.displaced]? = some r ∧
      ∀ c, ∃ u : BitVec s.cfg.width,
        ((r.get (o.sel.get c)).written = true → s.cfg.noHazards = true → u = BitVec.ofNat s.cfg.width (r.get (o.sel.get c)).value) ∧
        ((r.get (o.sel.get c)).written = false ∨ s.cfg.noHazards = false → u = draw s site c) ∧ v.get c = if o.neg.get c then -u else u

/-- A displaced operand names register n + FO, without wrap-around. The effective index of an operand is n, or the integer sum n
+ FO when the operand is displaced; it is never reduced modulo 256 (decision D3, log 20). -/
def Obligations.DisplacedIndexAddsTheFrameOffset : Prop :=
  ∀ (s : State) (n : BitVec 8),
    effIndex s n false = n.toNat ∧ effIndex s n true = n.toNat + s.fo.toNat ∧
      (s.fo = 255 → n = 255 → effIndex s n true = 510)

/-- An index beyond the register file refuses the instruction. An R-form instruction or branch of any operation, or an R-form
IO, with a source whose effective index is not below REG_COUNT is refused as RegisterIndexOutOfRange; so is an R-form
(sources readable) or I-form instruction of any operation, or an IO, whose written destination is not below REG_COUNT: LOGIC
where LOGIC_FN is supplied, IO where IO_MODEL = opaque, since their absence is checked before the destination (decision D3,
log 20). -/
def Obligations.RegisterIndexOutOfRangeIsRefused : Prop :=
  ∀ (ctl : Control) (d : Dst) (a b : Src) (imm : Word) (t : BitVec 8) (s : State),
    ((¬ s.Readable a ∨ ¬ s.Readable b) →
      (∀ op, exec (.ofRForm op ctl d a b) s = .refused .registerIndexOutOfRange) ∧
      exec (.io ctl d a b) s = .refused .registerIndexOutOfRange ∧
      (∀ op ty, exec (.ofBranch op ty ctl t a b) s = .refused .registerIndexOutOfRange)) ∧
    (¬ s.Writable d →
      (s.Readable a → s.Readable b →
        (∀ i ∈ [Instr.add ctl d a b, .div ctl d a b, .mul ctl d a b, .sqrt ctl d a b],
          exec i s = .refused .registerIndexOutOfRange) ∧
        (s.cfg.logicFn = .supplied → exec (.logic ctl d a b) s = .refused .registerIndexOutOfRange) ∧
        (s.cfg.ioModel = .opaqueEvents → exec (.io ctl d a b) s = .refused .registerIndexOutOfRange)) ∧
      (∀ i ∈ [Instr.addI ctl d imm, .divI ctl d imm, .mulI ctl d imm, .sqrtI ctl d imm],
        exec i s = .refused .registerIndexOutOfRange) ∧
      (s.cfg.logicFn = .supplied → exec (.logicI ctl d imm) s = .refused .registerIndexOutOfRange) ∧
      (s.cfg.ioModel = .opaqueEvents → exec (.ioI ctl d imm) s = .refused .registerIndexOutOfRange))

/-- Write-back changes the enabled destination channels and no other. When an instruction with a destination (every R-form and
I-form instruction) completes, only the enabled channels of the destination register receive values; a channel whose enable
is 0, and every channel of every other register, keeps its content; with all three enables 0 no register changes; and pc
goes to the next instruction (R138: no delay slot, decision D14, log 21). An instruction without a destination (NOP, a
branch) leaves every register as it was. Which value each enabled channel receives is said instruction by instruction. -/
def Obligations.WriteBackUnderTheWriteEnables : Prop :=
  ∀ (i : Instr) (s t : State), exec i s = .next t →
    (∀ d, destinationOf i = some d → t.pc = s.pc + 1 ∧ (∃ r : Vec s.cfg.width, Writes s t d r) ∧
      (anyEnabled d.we = false → t.regs = s.regs)) ∧
    (destinationOf i = none → t.regs = s.regs)

/-- NOP completes in every state and only moves on. NOP answers a next state in every state: pc is one higher, EOF = 1 sets
halted, the model's count of instructions goes up, and nothing else changes. -/
def Obligations.NopOnlyAdvances : Prop :=
  ∀ (eof : Bool) (s : State),
    exec (.nop eof) s = .next { s with pc := s.pc + 1, halted := s.halted || eof, tick := s.tick + 1 }

/-- ADD, R-form, completes and writes the wrapped sum of its prepared sources. With both sources below REG_COUNT and the
destination writable, ADD (R-form) with SCOP/LOP = 0 answers a next state in which the enabled destination channels hold the
sum of the prepared operands modulo 2^W (wrap-around is decision D6; W is the configured channel width). Nothing else
changes: every other channel, FO, the memory, the history and the configuration stay, pc goes to the next instruction, EOF =
1 sets halted. -/
def Obligations.AddRegisterFormWritesTheSum : Prop :=
  ∀ (eof : Bool) (d : Dst) (a b : Src) (s : State), s.Readable a → s.Readable b → s.Writable d →
    ∃ (va vb r : Vec s.cfg.width) (t : State), sourceOperand s .source1 a = some va ∧ sourceOperand s .source0 b = some vb ∧
      exec (.add ⟨eof, 0⟩ d a b) s = .next t ∧ Writes s t d r ∧ Advances s t eof (s.pc + 1) [] ∧
      r = ⟨va.x + vb.x, va.y + vb.y, va.z + vb.z⟩

/-- ADD, I-form, completes and writes the literal to every enabled channel. With the destination writable, ADD (I-form) with
SCOP/LOP = 0 answers a next state in which every enabled channel of the destination holds the literal, all 32 bits of it,
where W = 32 (decision D1, log 3); under another width, where the spec leaves the literal open, the model's free value of
that literal (log 3). Nothing else changes: every other channel, FO, the memory, the history and the configuration stay, pc
goes to the next instruction, EOF = 1 sets halted. Its word has IMM = 1, BBIT = 0, BOP = 0, OPCODE = 001, MODE = 100 or 101
as the destination is displaced, SIGN1X = SIGN1Y = 0 and the literal in IMMV. That EOF ends the run is decision D18 (log
13), that pc goes to the next instruction D14 (log 21), that FO and the memory stay D3 and D29 (logs 5, 22), that a
displaced index does not wrap D3 (log 20). -/
def Obligations.AddImmediateFormWritesTheLiteral : Prop :=
  (∀ (eof : Bool) (d : Dst) (imm : Word) (s : State), s.Writable d →
    ∃ (v : BitVec s.cfg.width) (t : State), exec (.addI ⟨eof, 0⟩ d imm) s = .next t ∧
      Writes s t d (⟨v, v, v⟩ : Vec s.cfg.width) ∧ Advances s t eof (s.pc + 1) [] ∧ (s.cfg.width = 32 → v.toNat = imm.toNat) ∧
      (s.cfg.width ≠ 32 → v = Config.literalFunction s.cfg.width imm)) ∧
  ∀ (eof : Bool) (d : Dst) (imm : Word),
    let w := encode (.addI ⟨eof, 0⟩ d imm)
    fieldImm w = true ∧ fieldBbit w = false ∧ fieldBop w = 0 ∧ fieldOpcode w = 1 ∧
      fieldMode w = (if d.displaced then 5 else 4) ∧ (fieldSign1 w).x = false ∧ (fieldSign1 w).y = false ∧ fieldImmv w = imm

/-- DIV, R-form, completes; each lane with a divisor other than 0 gets the truncated signed quotient. Under the default DIV_FN
(decision D8, log 11), sources readable and destination writable, DIV (R-form) with SCOP/LOP = 0 answers a next state in
which each enabled channel whose divisor lane is not 0 holds the signed quotient rounded toward zero, modulo 2^W; a channel
whose divisor lane is 0 holds the draw of this instruction for that lane (a free value, log 2). Nothing else changes: every
other channel, FO, the memory, the history and the configuration stay, pc goes to the next instruction, EOF = 1 sets halted. -/
def Obligations.DivRegisterFormWritesTheQuotient : Prop :=
  ∀ (eof : Bool) (d : Dst) (a b : Src) (s : State), s.cfg.divFn = .specDefault → s.Readable a → s.Readable b → s.Writable d →
    ∃ (va vb r : Vec s.cfg.width) (t : State), sourceOperand s .source1 a = some va ∧ sourceOperand s .source0 b = some vb ∧
      exec (.div ⟨eof, 0⟩ d a b) s = .next t ∧ Writes s t d r ∧ Advances s t eof (s.pc + 1) [] ∧
      ∀ c, (vb.get c ≠ 0 → r.get c = BitVec.ofInt s.cfg.width (Int.tdiv (va.get c).toInt (vb.get c).toInt)) ∧
        (vb.get c = 0 → r.get c = draw s .quotient c)

/-- DIV, I-form, completes: it divides by zero, so every enabled channel receives a draw. With the destination writable, DIV
(I-form) answers a next state, whatever DIV_FN and SCOP/LOP are; each enabled channel counts as written and holds the draw
of this instruction for its lane, a free value (b = 0; decisions D8, D25; logs 2, 26). That a division by zero stays a draw
under a supplied SCOP_TABLE too, whatever the selector, is the model's own choice (log 18). Nothing else changes: every
other channel, FO, the memory, the history and the configuration stay, pc goes to the next instruction, EOF = 1 sets halted. -/
def Obligations.DivImmediateFormCompletes : Prop :=
  ∀ (ctl : Control) (d : Dst) (imm : Word) (s : State), s.Writable d →
    ∃ (r : Vec s.cfg.width) (t : State), exec (.divI ctl d imm) s = .next t ∧ Writes s t d r ∧ Advances s t ctl.eof (s.pc + 1) [] ∧
      ∀ c, r.get c = draw s .quotient c

/-- MUL, both forms, completes and writes the low W bits of the product. Under the default MUL_FN (decision D7, log 11), sources
readable and destination writable, MUL (R-form) with SCOP/LOP = 0 answers a next state in which the enabled channels hold
the low W bits of the products of the unsigned readings; MUL (I-form), whose second operand is 0, answers one in which they
hold 0. Nothing else changes: every other channel, FO, the memory, the history and the configuration stay, pc goes to the
next instruction, EOF = 1 sets halted. -/
def Obligations.MulFormsWriteTheLowProduct : Prop :=
  (∀ (eof : Bool) (d : Dst) (a b : Src) (s : State), s.cfg.mulFn = .specDefault → s.Readable a → s.Readable b → s.Writable d →
    ∃ (va vb r : Vec s.cfg.width) (t : State), sourceOperand s .source1 a = some va ∧ sourceOperand s .source0 b = some vb ∧
      exec (.mul ⟨eof, 0⟩ d a b) s = .next t ∧ Writes s t d r ∧ Advances s t eof (s.pc + 1) [] ∧
      ∀ c, r.get c = BitVec.ofNat s.cfg.width ((va.get c).toNat * (vb.get c).toNat)) ∧
  ∀ (eof : Bool) (d : Dst) (imm : Word) (s : State), s.cfg.mulFn = .specDefault → s.Writable d →
    ∃ t, exec (.mulI ⟨eof, 0⟩ d imm) s = .next t ∧ Writes s t d (⟨0, 0, 0⟩ : Vec s.cfg.width) ∧ Advances s t eof (s.pc + 1) []

/-- SQRT, both forms, completes and writes the floor of the square root of source 1. Under the default SQRT_FN (decision D9, log
11), sources readable and destination writable, SQRT (R-form) with SCOP/LOP = 0 answers a next state in which each enabled
channel holds the largest n with n * n at most the unsigned reading of source 1's lane; SQRT (I-form) the same for the
literal (itself where W = 32; under another width, which R82 leaves open, the model's free value of it, DESIGN CHOICE, log
3). Nothing else changes: every other channel, FO, the memory, the history and the configuration stay, pc goes to the next
instruction, EOF = 1 sets halted. -/
def Obligations.SqrtFormsWriteTheFloorRoot : Prop :=
  (∀ (eof : Bool) (d : Dst) (a b : Src) (s : State), s.cfg.sqrtFn = .specDefault → s.Readable a → s.Readable b → s.Writable d →
    ∃ (va vb r : Vec s.cfg.width) (t : State), sourceOperand s .source1 a = some va ∧ sourceOperand s .source0 b = some vb ∧
      exec (.sqrt ⟨eof, 0⟩ d a b) s = .next t ∧ Writes s t d r ∧ Advances s t eof (s.pc + 1) [] ∧
      ∀ c, (r.get c).toNat * (r.get c).toNat ≤ (va.get c).toNat ∧
        (va.get c).toNat < ((r.get c).toNat + 1) * ((r.get c).toNat + 1)) ∧
  ∀ (eof : Bool) (d : Dst) (imm : Word) (s : State), s.cfg.sqrtFn = .specDefault → s.Writable d →
    ∃ (n : BitVec s.cfg.width) (t : State), exec (.sqrtI ⟨eof, 0⟩ d imm) s = .next t ∧ Writes s t d (⟨n, n, n⟩ : Vec s.cfg.width) ∧
      Advances s t eof (s.pc + 1) [] ∧
      n.toNat * n.toNat ≤ (literalValue s.cfg.width imm).toNat ∧
      (literalValue s.cfg.width imm).toNat < (n.toNat + 1) * (n.toNat + 1)

/-- With supplied functions MUL, DIV and SQRT write what those functions give. Where the launch supplies MUL_FN, DIV_FN or
SQRT_FN (uninterpreted functions of the two operands, log 11), the R-form of the operation with SCOP/LOP = 0 completes and
each enabled channel holds the function's value on the prepared lanes, a draw where the divisor of DIV is 0; the I-form of
MUL and of SQRT completes and each enabled channel holds the function's value on the literal (itself where W = 32; under
another width, which R82 leaves open, the model's free value of it, DESIGN CHOICE, log 3) and 0. (The I-form of DIV, whose
divisor is 0 under every DIV_FN, has a statement of its own.) Nothing else changes: every other channel, FO, the memory, the
history and the configuration stay, pc goes to the next instruction, EOF = 1 sets halted. -/
def Obligations.SuppliedFunctionsDecideMulDivSqrt : Prop :=
  (∀ (eof : Bool) (d : Dst) (a b : Src) (s : State), s.Readable a → s.Readable b → s.Writable d →
    ∃ va vb, sourceOperand s .source1 a = some va ∧ sourceOperand s .source0 b = some vb ∧
      (s.cfg.mulFn = .supplied → ∃ (r : Vec s.cfg.width) (t : State), exec (.mul ⟨eof, 0⟩ d a b) s = .next t ∧ Writes s t d r ∧ Advances s t eof (s.pc + 1) [] ∧
        ∀ c, r.get c = Config.mulFunction (va.get c) (vb.get c)) ∧
      (s.cfg.divFn = .supplied → ∃ (r : Vec s.cfg.width) (t : State), exec (.div ⟨eof, 0⟩ d a b) s = .next t ∧ Writes s t d r ∧ Advances s t eof (s.pc + 1) [] ∧
        ∀ c, r.get c = if vb.get c = 0 then draw s .quotient c else Config.divFunction (va.get c) (vb.get c)) ∧
      (s.cfg.sqrtFn = .supplied → ∃ (r : Vec s.cfg.width) (t : State), exec (.sqrt ⟨eof, 0⟩ d a b) s = .next t ∧ Writes s t d r ∧ Advances s t eof (s.pc + 1) [] ∧
        ∀ c, r.get c = Config.sqrtFunction (va.get c) (vb.get c))) ∧
  ∀ (eof : Bool) (d : Dst) (imm : Word) (s : State), s.Writable d →
    (s.cfg.mulFn = .supplied → ∃ (r : Vec s.cfg.width) (t : State), exec (.mulI ⟨eof, 0⟩ d imm) s = .next t ∧ Writes s t d r ∧ Advances s t eof (s.pc + 1) [] ∧
      ∀ c, r.get c = Config.mulFunction (literalValue s.cfg.width imm) 0) ∧
    (s.cfg.sqrtFn = .supplied → ∃ (r : Vec s.cfg.width) (t : State), exec (.sqrtI ⟨eof, 0⟩ d imm) s = .next t ∧ Writes s t d r ∧ Advances s t eof (s.pc + 1) [] ∧
      ∀ c, r.get c = Config.sqrtFunction (literalValue s.cfg.width imm) 0)

/-- LOGIC, both forms, completes when LOGIC_FN is supplied and writes its value. Where LOGIC_FN is supplied (as at reset, the
model's choice, log 8), sources readable and destination writable, LOGIC (R-form) with selector SCOP/LOP answers a next
state in which each enabled channel holds LOGIC_FN of that selector and the two prepared lanes; LOGIC (I-form) of the
selector, the literal (itself where W = 32; under another width, which R82 leaves open, the model's free value of it, DESIGN
CHOICE, log 3) and 0. LOGIC_FN is uninterpreted (decision D10); without SCOP_TABLE the decoder gives the selector 0 only.
Nothing else changes: every other channel, FO, the memory, the history and the configuration stay, pc goes to the next
instruction, EOF = 1 sets halted. -/
def Obligations.LogicFormsWriteTheSuppliedFunction : Prop :=
  (∀ (ctl : Control) (d : Dst) (a b : Src) (s : State), s.cfg.logicFn = .supplied →
    s.Readable a → s.Readable b → s.Writable d →
    ∃ (va vb r : Vec s.cfg.width) (t : State), sourceOperand s .source1 a = some va ∧ sourceOperand s .source0 b = some vb ∧
      exec (.logic ctl d a b) s = .next t ∧ Writes s t d r ∧ Advances s t ctl.eof (s.pc + 1) [] ∧
      ∀ c, r.get c = Config.logicFunction ctl.scop (va.get c) (vb.get c)) ∧
  ∀ (ctl : Control) (d : Dst) (imm : Word) (s : State), s.cfg.logicFn = .supplied → s.Writable d →
    ∃ (r : Vec s.cfg.width) (t : State), exec (.logicI ctl d imm) s = .next t ∧ Writes s t d r ∧ Advances s t ctl.eof (s.pc + 1) [] ∧
      ∀ c, r.get c = Config.logicFunction ctl.scop (literalValue s.cfg.width imm) 0

/-- IO, both forms, completes under IO_MODEL = opaque, records one event and writes draws. Under IO_MODEL = opaque (as at reset,
the model's choice, log 9), sources readable and destination writable, IO (R-form) answers a next state in which the history
has one more event, with pc, the write enables, the destination index (absent when no enable is set, log 10) and the
prepared operands, by their unsigned readings; each enabled channel counts as written and holds the draw of this instruction
for its lane (a free value, decision D11, log 2). IO (I-form) the same with the literal (itself where W = 32; under another
width, which R82 leaves open, the model's free value of it, DESIGN CHOICE, log 3) and zero as operands. SCOP/LOP changes
nothing (log 18). Nothing else changes. -/
def Obligations.IoFormsRecordAnEvent : Prop :=
  ∀ (ctl : Control) (d : Dst) (s : State), s.cfg.ioModel = .opaqueEvents → s.Writable d →
    let named := if anyEnabled d.we then some (effIndex s d.index d.displaced) else none
    let drawn : Vec s.cfg.width := ⟨draw s .input .x, draw s .input .y, draw s .input .z⟩
    (∀ a b, s.Readable a → s.Readable b →
      ∃ va vb t, sourceOperand s .source1 a = some va ∧ sourceOperand s .source0 b = some vb ∧
        exec (.io ctl d a b) s = .next t ∧ Writes s t d drawn ∧
        Advances s t ctl.eof (s.pc + 1) [⟨s.pc, d.we, named, va.readings, vb.readings⟩]) ∧
    ∀ imm, ∃ t, exec (.ioI ctl d imm) s = .next t ∧ Writes s t d drawn ∧
      let n := (literalValue s.cfg.width imm).toNat
      Advances s t ctl.eof (s.pc + 1) [⟨s.pc, d.we, named, ⟨n, n, n⟩, ⟨0, 0, 0⟩⟩]

/-- Without LOGIC_FN or IO_MODEL, LOGIC and IO are refused by name. Where the launch supplies no LOGIC_FN, LOGIC (R-form, I-form
and every branch fused with it), sources readable, is refused as LogicOperationNotDocumented; under IO_MODEL = refuse, IO
(both forms) is refused as IoNotDocumented. These are the spec's defaults (decisions D10, D11); State.reset chooses
otherwise (logs 8, 9). -/
def Obligations.UnsuppliedLogicAndIoAreRefused : Prop :=
  ∀ (ctl : Control) (d : Dst) (a b : Src) (imm : Word) (tgt : BitVec 8) (s : State), s.Readable a → s.Readable b →
    (s.cfg.logicFn = .absent →
      ∀ i ∈ [Instr.logic ctl d a b, .logicI ctl d imm, .logicBranchAlways ctl tgt a b, .logicBranchZero ctl tgt a b,
          .logicBranchNotZero ctl tgt a b, .logicBranchSign ctl tgt a b, .logicBranchNotSign ctl tgt a b,
          .logicBranchZeroOrSign ctl tgt a b, .logicBranchZeroOrNotSign ctl tgt a b],
        exec i s = .refused .logicOperationNotDocumented) ∧
    (s.cfg.ioModel = .refuse →
      exec (.io ctl d a b) s = .refused .ioNotDocumented ∧ exec (.ioI ctl d imm) s = .refused .ioNotDocumented)

/-- A word with OPCODE 111 is refused, as ReservedOpcode where nothing earlier refuses it. A machine that is neither halted nor
refused and fetches a word with bits 50:48 = 111 answers a refusal; its reason is ReservedOpcode whenever bits 53:51 are 0,
SCOP/LOP is 0 or SCOP_TABLE supplied, and EOF is 0 or ends the run. RSVR2 itself is refused as ReservedOpcode in every state
(decision D22). -/
def Obligations.ReservedOpcodeIsRefused : Prop :=
  (∀ (w : Insn) (s : State), exec (.rsvr2 w) s = .refused .reservedOpcode) ∧
  ∀ (s : State) (w : Insn), s.refused = none → s.halted = false → ifetch s s.pc = some w → fieldOpcode w = 7 →
    (∃ r, step s = .refused r) ∧
    (fieldReserved w = 0 → (fieldScop w = 0 ∨ s.cfg.scopTable = .supplied) → (fieldEof w = false ∨ s.cfg.eofModel = .endsRun) →
      step s = .refused .reservedOpcode)

/-- BRANCH.ALWAYS, fused with each operation, completes and goes to the target always. For each of ADD, DIV, MUL, SQRT, LOGIC
(LOGIC with LOGIC_FN supplied), sources readable, the instruction fused with BRANCH.ALWAYS answers a next state. The result
is the operation's, under its selector SCOP/LOP (log 18), on the prepared operands; control goes to the target always, else
to the next instruction; no register, FO, memory word, history entry or configuration changes; EOF = 1 sets halted. -/
def Obligations.BranchAlwaysCompletes : Prop :=
  ∀ (ctl : Control) (tgt : BitVec 8) (a b : Src) (s : State), s.Readable a → s.Readable b →
    ∃ va vb, sourceOperand s .source1 a = some va ∧ sourceOperand s .source0 b = some vb ∧
      ∀ p ∈ [(AluOp.add, Instr.addBranchAlways ctl tgt a b),
          (.div, .divBranchAlways ctl tgt a b),
          (.mul, .mulBranchAlways ctl tgt a b),
          (.sqrt, .sqrtBranchAlways ctl tgt a b),
          (.logic, .logicBranchAlways ctl tgt a b)],
        (p.1 = .logic → s.cfg.logicFn = .supplied) →
        ∃ t, exec p.2 s = .next t ∧ t.regs = s.regs ∧ Advances s t ctl.eof t.pc [] ∧
          t.pc = tgt.toNat

/-- BRANCH.ZERO, fused with each operation, completes and goes to the target on its condition. For each of ADD, DIV, MUL, SQRT,
LOGIC (LOGIC with LOGIC_FN supplied), sources readable, the instruction fused with BRANCH.ZERO answers a next state. The
result is the operation's, under its selector SCOP/LOP (log 18), on the prepared operands; control goes to the target
exactly when all three lanes of the result are 0 (ZERO_RULE at its default, decision D12), else to the next instruction; no
register, FO, memory word, history entry or configuration changes; EOF = 1 sets halted. -/
def Obligations.BranchZeroCompletes : Prop :=
  ∀ (ctl : Control) (tgt : BitVec 8) (a b : Src) (s : State), s.cfg.zeroRule = .allLanes → s.Readable a → s.Readable b →
    ∃ va vb, sourceOperand s .source1 a = some va ∧ sourceOperand s .source0 b = some vb ∧
      ∀ p ∈ [(AluOp.add, Instr.addBranchZero ctl tgt a b),
          (.div, .divBranchZero ctl tgt a b),
          (.mul, .mulBranchZero ctl tgt a b),
          (.sqrt, .sqrtBranchZero ctl tgt a b),
          (.logic, .logicBranchZero ctl tgt a b)],
        (p.1 = .logic → s.cfg.logicFn = .supplied) →
        ∃ t, exec p.2 s = .next t ∧ t.regs = s.regs ∧ Advances s t ctl.eof t.pc [] ∧
          (let r := aluResult p.1 ctl.scop s va vb;
          (((r.x = 0 ∧ r.y = 0 ∧ r.z = 0) ∧ t.pc = tgt.toNat) ∨ (¬ (r.x = 0 ∧ r.y = 0 ∧ r.z = 0) ∧ t.pc = s.pc + 1)))

/-- BRANCH.NOT_ZERO, fused with each operation, completes and goes to the target on its condition. For each of ADD, DIV, MUL,
SQRT, LOGIC (LOGIC with LOGIC_FN supplied), sources readable, the instruction fused with BRANCH.NOT_ZERO answers a next
state. The result is the operation's, under its selector SCOP/LOP (log 18), on the prepared operands; control goes to the
target exactly when some lane of the result is not 0 (ZERO_RULE at its default, decision D12), else to the next instruction;
no register, FO, memory word, history entry or configuration changes; EOF = 1 sets halted. -/
def Obligations.BranchNotZeroCompletes : Prop :=
  ∀ (ctl : Control) (tgt : BitVec 8) (a b : Src) (s : State), s.cfg.zeroRule = .allLanes → s.Readable a → s.Readable b →
    ∃ va vb, sourceOperand s .source1 a = some va ∧ sourceOperand s .source0 b = some vb ∧
      ∀ p ∈ [(AluOp.add, Instr.addBranchNotZero ctl tgt a b),
          (.div, .divBranchNotZero ctl tgt a b),
          (.mul, .mulBranchNotZero ctl tgt a b),
          (.sqrt, .sqrtBranchNotZero ctl tgt a b),
          (.logic, .logicBranchNotZero ctl tgt a b)],
        (p.1 = .logic → s.cfg.logicFn = .supplied) →
        ∃ t, exec p.2 s = .next t ∧ t.regs = s.regs ∧ Advances s t ctl.eof t.pc [] ∧
          (let r := aluResult p.1 ctl.scop s va vb;
          (((¬(r.x = 0 ∧ r.y = 0 ∧ r.z = 0)) ∧ t.pc = tgt.toNat) ∨ (¬ (¬(r.x = 0 ∧ r.y = 0 ∧ r.z = 0)) ∧ t.pc = s.pc + 1)))

/-- BRANCH.SIGN, fused with each operation, completes and goes to the target on its condition. For each of ADD, DIV, MUL, SQRT,
LOGIC (LOGIC with LOGIC_FN supplied), sources readable, the instruction fused with BRANCH.SIGN answers a next state. The
result is the operation's, under its selector SCOP/LOP (log 18), on the prepared operands; control goes to the target
exactly when bit W-1 of lane x of the result is 1 (SIGN_RULE at its default, decision D13), else to the next instruction; no
register, FO, memory word, history entry or configuration changes; EOF = 1 sets halted. -/
def Obligations.BranchSignCompletes : Prop :=
  ∀ (ctl : Control) (tgt : BitVec 8) (a b : Src) (s : State), s.cfg.signRule = .laneX → s.Readable a → s.Readable b →
    ∃ va vb, sourceOperand s .source1 a = some va ∧ sourceOperand s .source0 b = some vb ∧
      ∀ p ∈ [(AluOp.add, Instr.addBranchSign ctl tgt a b),
          (.div, .divBranchSign ctl tgt a b),
          (.mul, .mulBranchSign ctl tgt a b),
          (.sqrt, .sqrtBranchSign ctl tgt a b),
          (.logic, .logicBranchSign ctl tgt a b)],
        (p.1 = .logic → s.cfg.logicFn = .supplied) →
        ∃ t, exec p.2 s = .next t ∧ t.regs = s.regs ∧ Advances s t ctl.eof t.pc [] ∧
          (let r := aluResult p.1 ctl.scop s va vb;
          (((r.x.getLsbD (s.cfg.width - 1) = true) ∧ t.pc = tgt.toNat) ∨ (¬ (r.x.getLsbD (s.cfg.width - 1) = true) ∧ t.pc = s.pc + 1)))

/-- BRANCH.NOT_SIGN, fused with each operation, completes and goes to the target on its condition. For each of ADD, DIV, MUL,
SQRT, LOGIC (LOGIC with LOGIC_FN supplied), sources readable, the instruction fused with BRANCH.NOT_SIGN answers a next
state. The result is the operation's, under its selector SCOP/LOP (log 18), on the prepared operands; control goes to the
target exactly when bit W-1 of lane x of the result is 0 (SIGN_RULE at its default, decision D13), else to the next
instruction; no register, FO, memory word, history entry or configuration changes; EOF = 1 sets halted. -/
def Obligations.BranchNotSignCompletes : Prop :=
  ∀ (ctl : Control) (tgt : BitVec 8) (a b : Src) (s : State), s.cfg.signRule = .laneX → s.Readable a → s.Readable b →
    ∃ va vb, sourceOperand s .source1 a = some va ∧ sourceOperand s .source0 b = some vb ∧
      ∀ p ∈ [(AluOp.add, Instr.addBranchNotSign ctl tgt a b),
          (.div, .divBranchNotSign ctl tgt a b),
          (.mul, .mulBranchNotSign ctl tgt a b),
          (.sqrt, .sqrtBranchNotSign ctl tgt a b),
          (.logic, .logicBranchNotSign ctl tgt a b)],
        (p.1 = .logic → s.cfg.logicFn = .supplied) →
        ∃ t, exec p.2 s = .next t ∧ t.regs = s.regs ∧ Advances s t ctl.eof t.pc [] ∧
          (let r := aluResult p.1 ctl.scop s va vb;
          (((r.x.getLsbD (s.cfg.width - 1) = false) ∧ t.pc = tgt.toNat) ∨ (¬ (r.x.getLsbD (s.cfg.width - 1) = false) ∧ t.pc = s.pc + 1)))

/-- BRANCH.ZERO_OR_SIGN, fused with each operation, completes and goes to the target on its condition. For each of ADD, DIV,
MUL, SQRT, LOGIC (LOGIC with LOGIC_FN supplied), sources readable, the instruction fused with BRANCH.ZERO_OR_SIGN answers a
next state. The result is the operation's, under its selector SCOP/LOP (log 18), on the prepared operands; control goes to
the target exactly when all three lanes of the result are 0 or bit W-1 of its lane x is 1 (ZERO_RULE and SIGN_RULE at their
defaults, decisions D12, D13), else to the next instruction; no register, FO, memory word, history entry or configuration
changes; EOF = 1 sets halted. -/
def Obligations.BranchZeroOrSignCompletes : Prop :=
  ∀ (ctl : Control) (tgt : BitVec 8) (a b : Src) (s : State), s.cfg.zeroRule = .allLanes → s.cfg.signRule = .laneX → s.Readable a → s.Readable b →
    ∃ va vb, sourceOperand s .source1 a = some va ∧ sourceOperand s .source0 b = some vb ∧
      ∀ p ∈ [(AluOp.add, Instr.addBranchZeroOrSign ctl tgt a b),
          (.div, .divBranchZeroOrSign ctl tgt a b),
          (.mul, .mulBranchZeroOrSign ctl tgt a b),
          (.sqrt, .sqrtBranchZeroOrSign ctl tgt a b),
          (.logic, .logicBranchZeroOrSign ctl tgt a b)],
        (p.1 = .logic → s.cfg.logicFn = .supplied) →
        ∃ t, exec p.2 s = .next t ∧ t.regs = s.regs ∧ Advances s t ctl.eof t.pc [] ∧
          (let r := aluResult p.1 ctl.scop s va vb;
          ((((r.x = 0 ∧ r.y = 0 ∧ r.z = 0) ∨ r.x.getLsbD (s.cfg.width - 1) = true) ∧ t.pc = tgt.toNat) ∨ (¬ ((r.x = 0 ∧ r.y = 0 ∧ r.z = 0) ∨ r.x.getLsbD (s.cfg.width - 1) = true) ∧ t.pc = s.pc + 1)))

/-- BRANCH.ZERO_OR_NOT_SIGN, fused with each operation, completes and goes to the target on its condition. For each of ADD, DIV,
MUL, SQRT, LOGIC (LOGIC with LOGIC_FN supplied), sources readable, the instruction fused with BRANCH.ZERO_OR_NOT_SIGN
answers a next state. The result is the operation's, under its selector SCOP/LOP (log 18), on the prepared operands; control
goes to the target exactly when all three lanes of the result are 0 or bit W-1 of its lane x is 0 (ZERO_RULE and SIGN_RULE
at their defaults, decisions D12, D13), else to the next instruction; no register, FO, memory word, history entry or
configuration changes; EOF = 1 sets halted. -/
def Obligations.BranchZeroOrNotSignCompletes : Prop :=
  ∀ (ctl : Control) (tgt : BitVec 8) (a b : Src) (s : State), s.cfg.zeroRule = .allLanes → s.cfg.signRule = .laneX → s.Readable a → s.Readable b →
    ∃ va vb, sourceOperand s .source1 a = some va ∧ sourceOperand s .source0 b = some vb ∧
      ∀ p ∈ [(AluOp.add, Instr.addBranchZeroOrNotSign ctl tgt a b),
          (.div, .divBranchZeroOrNotSign ctl tgt a b),
          (.mul, .mulBranchZeroOrNotSign ctl tgt a b),
          (.sqrt, .sqrtBranchZeroOrNotSign ctl tgt a b),
          (.logic, .logicBranchZeroOrNotSign ctl tgt a b)],
        (p.1 = .logic → s.cfg.logicFn = .supplied) →
        ∃ t, exec p.2 s = .next t ∧ t.regs = s.regs ∧ Advances s t ctl.eof t.pc [] ∧
          (let r := aluResult p.1 ctl.scop s va vb;
          ((((r.x = 0 ∧ r.y = 0 ∧ r.z = 0) ∨ r.x.getLsbD (s.cfg.width - 1) = false) ∧ t.pc = tgt.toNat) ∨ (¬ ((r.x = 0 ∧ r.y = 0 ∧ r.z = 0) ∨ r.x.getLsbD (s.cfg.width - 1) = false) ∧ t.pc = s.pc + 1)))

/-- ADD with source 0 negated in all lanes subtracts. ADD (R-form) with unswizzled sources, source 0 negated in all three lanes
and all three enables set, on registers all of whose channels have been written, under NO_HAZARDS, completes and writes R[j]
- R[k] lane by lane modulo 2^W, for displaced and undisplaced operands alike (Table 2: "Subtraction: R[13 + offset] = R[12 +
offset] - R[11 + offset]"; wrap-around is decision D6). -/
def Obligations.SubtractIdiom : Prop :=
  ∀ (eof : Bool) (i j k : BitVec 8) (di dj dk : Bool) (s : State) (u v : Vec s.cfg.width), s.cfg.noHazards = true →
    (∀ c, s.channel (effIndex s j dj) c = some ⟨(u.get c).toNat, true⟩) → (∀ c, s.channel (effIndex s k dk) c = some ⟨(v.get c).toNat, true⟩) →
    effIndex s i di < s.regs.length →
    ∃ t, exec (.add ⟨eof, 0⟩ ⟨i, di, ⟨true, true, true⟩⟩ ⟨j, dj, ⟨false, false, false⟩, ⟨.x, .y, .z⟩⟩
        ⟨k, dk, ⟨true, true, true⟩, ⟨.x, .y, .z⟩⟩) s = .next t ∧
      ∀ c, t.channel (effIndex s i di) c = some ⟨(u.get c - v.get c).toNat, true⟩

/-- The compare-and-branch idiom branches exactly when the two registers differ. ADD <BRANCH.NOT_ZERO> with source 0 negated in
all lanes, on registers all of whose channels have been written, under NO_HAZARDS, completes and goes to its target exactly
when the two registers differ in some lane, else to the next instruction (Table 2: "Branch to absolute address 36 if R[55]
!= R[56]"; ZERO_RULE at its default, decision D12). -/
def Obligations.CompareAndBranchIdiom : Prop :=
  ∀ (eof : Bool) (tgt j k : BitVec 8) (dj dk : Bool) (s : State) (u v : Vec s.cfg.width), s.cfg.zeroRule = .allLanes →
    s.cfg.noHazards = true →
    (∀ c, s.channel (effIndex s j dj) c = some ⟨(u.get c).toNat, true⟩) → (∀ c, s.channel (effIndex s k dk) c = some ⟨(v.get c).toNat, true⟩) →
    ∃ t, exec (.addBranchNotZero ⟨eof, 0⟩ tgt ⟨j, dj, ⟨false, false, false⟩, ⟨.x, .y, .z⟩⟩
        ⟨k, dk, ⟨true, true, true⟩, ⟨.x, .y, .z⟩⟩) s = .next t ∧
      t.pc = (if u = v then s.pc + 1 else tgt.toNat) ∧ t.regs = s.regs

/-- A sign bit negates in two's complement. neg_W, as 2^W - u(v) reduced modulo 2^W, is two's-complement negation, is its own
inverse, and a value plus its negation is 0, for every width W; under W = 32 it fixes 0 and 0x80000000 (decision D6). -/
def Obligations.NegationLaws : Prop :=
  (∀ (W : Nat) (v : BitVec W), negW v = -v ∧ negW (negW v) = v ∧ addLane v (negW v) = 0) ∧
    negW (0 : Word) = 0 ∧ negW (0x80000000 : Word) = 0x80000000

/-- The default MUL_FN is the truncated product of the signed readings as well. For every width W, the low W bits of the product
of the unsigned readings are those of the product of the signed readings; the product is commutative, by 0 it is 0, by 1 the
value (decision D7). -/
def Obligations.DefaultMulIsTheSignedProductToo : Prop :=
  ∀ (W : Nat) (a b : BitVec W), mulDefault a b = BitVec.ofInt W (a.toInt * b.toInt) ∧ mulDefault a b = mulDefault b a ∧
    mulDefault a 0 = 0 ∧ mulDefault a 1 = a

/-- The default DIV_FN is the signed quotient rounded toward zero, exact but for the one overflow. Under W = 32, for a divisor
other than 0 the signed reading of the quotient q satisfies: q times b is within |b| of a on the side of zero and has the
sign of the exact quotient, unless a is -2^31 and b is -1, where the result is 0x80000000 (decision D8). -/
def Obligations.DefaultDivRoundsTowardZero : Prop :=
  ∀ a b : Word, b ≠ 0 →
    (a = 0x80000000 → b = 0xFFFFFFFF → divDefault a b = 0x80000000) ∧
    (¬ (a = 0x80000000 ∧ b = 0xFFFFFFFF) →
      let q := (divDefault a b).toInt
      |a.toInt - q * b.toInt| < |b.toInt| ∧ |q * b.toInt| ≤ |a.toInt| ∧
        (q < 0 ↔ (q ≠ 0 ∧ (a.toInt < 0 ↔ ¬ b.toInt < 0))))

/-- The default SQRT_FN is the floor of the square root and at most 0xFFFF. Under W = 32, for every a and b the result n of the
default SQRT_FN satisfies n * n <= u(a) < (n + 1) * (n + 1), is at most 0xFFFF, and does not depend on b (decision D9). -/
def Obligations.DefaultSqrtIsTheFloorRoot : Prop :=
  ∀ a b b' : Word,
    (sqrtDefault a b).toNat * (sqrtDefault a b).toNat ≤ a.toNat ∧
      a.toNat < ((sqrtDefault a b).toNat + 1) * ((sqrtDefault a b).toNat + 1) ∧
      (sqrtDefault a b).toNat ≤ 0xFFFF ∧ sqrtDefault a b = sqrtDefault a b'

/-- Under the default rules ZERO_OR_NOT_SIGN behaves exactly like NOT_SIGN. With ZERO_RULE and SIGN_RULE at their defaults
(decisions D12, D13), executing an operation fused with BRANCH.ZERO_OR_NOT_SIGN has in every state the outcome of the same
operation fused with BRANCH.NOT_SIGN, target and operands being the same. -/
def Obligations.ZeroOrNotSignIsNotSignByDefault : Prop :=
  ∀ (op : AluOp) (ctl : Control) (tgt : BitVec 8) (a b : Src) (s : State),
    s.cfg.zeroRule = .allLanes → s.cfg.signRule = .laneX →
    exec (.ofBranch op .zeroOrNotSign ctl tgt a b) s = exec (.ofBranch op .notSign ctl tgt a b) s

/-- A step runs the instruction that the word at pc decodes to. In a machine that is neither halted nor refused, when the word
at pc is loaded below IMEM_SIZE and decodes to an instruction i, the step is exec of i at that state; nothing is added
around it: exec itself moves pc. -/
def Obligations.StepRunsTheDecodedInstruction : Prop :=
  ∀ (s : State) (w : Insn) (i : Instr), s.refused = none → s.halted = false → s.pc < s.cfg.imemSize →
    s.imem.read s.pc = some w → decode s.cfg w = .ok i → step s = exec i s

/-- A word placed for the fetch is the next instruction executed. In a state whose IMEM_SIZE is not 0, when the given bits
decode to i, the step after withFetchWord is exec of i; the placed word is read back at pc, and every other address of the
memory reads as before (the load that withFetchWord stands for, log 7). -/
def Obligations.PlacedWordRunsNext : Prop :=
  ∀ (s : State) (nbits w : Nat) (i : Instr), 0 < s.cfg.imemSize →
    decode s.cfg (BitVec.ofNat 64 (w % 2 ^ nbits)) = .ok i →
    step (s.withFetchWord nbits w) = exec i (s.withFetchWord nbits w) ∧
      ∀ a, (s.withFetchWord nbits w).imem.read a =
        if a = (s.withFetchWord nbits w).pc then some (BitVec.ofNat 64 (w % 2 ^ nbits)) else s.imem.read a

/-- Every step keeps the invariant of the state. For every state with the invariant (memory in canonical form, REG_COUNT
registers, no more than W bits in any channel, pc at most IMEM_SIZE or a branch target, every recorded Io event one that can
have happened, none under IO_MODEL = refuse), if a step answers a next state, that state has it too. -/
def Obligations.StepKeepsTheInvariant : Prop :=
  ∀ s t : State, s.Inv → step s = .next t → t.Inv

/-- The reset state has the invariant and the reset values. State.reset has the invariant that every step keeps; its pc is 0, it
is neither halted nor refused, no word is loaded, no event recorded, and each of its 256 registers has three unwritten
channels (the launch table of the spec, decisions D2, D5, D33). -/
def Obligations.ResetHasTheInvariant : Prop :=
  State.reset.Inv ∧ State.reset.pc = 0 ∧ State.reset.halted = false ∧ State.reset.refused = none ∧
    (∀ a, State.reset.imem.read a = none) ∧ State.reset.ioLog = [] ∧ State.reset.regs.length = 256 ∧
    ∀ r ∈ State.reset.regs, ∀ c : Chan, (r.get c).written = false

/-- No instruction changes FO, the program, the configuration or the number of registers, and none unwrites a channel. If a step
answers a next state, FO, every word of the instruction memory, the configuration and the number of registers are as before;
a channel once written stays written; the history is the old one with at most one event added at its end; the model's count
of instructions is one higher (decisions D3, D29). -/
def Obligations.NoInstructionChangesTheLaunch : Prop :=
  ∀ s t : State, step s = .next t →
    t.fo = s.fo ∧ t.imem = s.imem ∧ t.cfg = s.cfg ∧ t.regs.length = s.regs.length ∧ t.refused = none ∧ t.tick = s.tick + 1 ∧
    (∀ i c u, s.channel i c = some u → u.written = true → ∃ v, t.channel i c = some v ∧ v.written = true) ∧
    ∃ l, t.ioLog = s.ioLog ++ l ∧ l.length ≤ 1

/-- Only IO instructions add to the history of Io events. An instruction other than the two forms of IO that completes leaves
the history of Io events as it was. -/
def Obligations.OnlyIoRecordsEvents : Prop :=
  ∀ (i : Instr) (s t : State), exec i s = .next t → 
    (∀ ctl d a b, i ≠ .io ctl d a b) → (∀ ctl d imm, i ≠ .ioI ctl d imm) →
    t.ioLog = s.ioLog

/-- A step leaves the machine halted exactly when the instruction it executed has EOF = 1. If a step answers a next state, then
a word was fetched at pc, and the next state is halted exactly when that word's EOF bit is 1 (decision D18, log 13). -/
def Obligations.HaltedExactlyAfterEof : Prop :=
  ∀ s t : State, step s = .next t → ∃ w, ifetch s s.pc = some w ∧ t.halted = fieldEof w

/-- A halted machine and a machine at an unloaded address have no step. In a state that is not refused: if halted, the step is
the fault runEnded and no instruction is fetched; if not halted and pc is not below IMEM_SIZE or its address is not loaded,
the step is the fault notLoaded: the machine is stuck (decisions D18, D36, logs 14 and 15). -/
def Obligations.NoStepAfterTheRunOrOutsideTheProgram : Prop :=
  ∀ s : State, s.refused = none →
    (s.halted = true → step s = .fault .runEnded) ∧
    (s.halted = false → (s.cfg.imemSize ≤ s.pc ∨ s.imem.read s.pc = none) → step s = .fault .notLoaded)

/-- A refusal leaves the state as it was but for the mark, for the rest of the run. When a step is refused, the run's next state
is the same state with the mark `refused` set, no register and not pc changed; and from a state that is refused or halted no
number of further steps changes anything. A refused state is never final. That the whole state stays, the Io history
included (an IO refused at its destination leaves no event), is the model's choice (log 33; R242 speaks of registers and pc
only); that the mark holds the reason and the run sets it is log 16. -/
def Obligations.RefusedStateStaysAndChangesNothing : Prop :=
  ∀ (s : State) (r : Refusal) (n : Nat),
    (step s = .refused r → runFor (n + 1) s = { s with refused := some r }) ∧
    ((s.refused = some r ∨ s.halted = true ∧ s.refused = none) → runFor n s = s) ∧
    (s.refused = some r → s.isFinal = false)

/-- What lies under the mark "unwritten" never shows. Two states that are the same but for the values held by channels that
nothing has written have the same step outcome: the same fault, the same refusal, or next states that are again the same but
for such values. So no choice of a register's reset value can be observed by any run (decision D19; this is what makes log
1's zero harmless). -/
def Obligations.UnwrittenValuesAreInvisible : Prop :=
  ∀ s t : State, State.Agree s t → StepResult.Agree (step s) (step t)

/-- A launch loads the program from address 0 up and starts from the reset values and the initial contents. A launch gives a
state exactly when its program has at most IMEM_SIZE words and its initial contents name registers below REG_COUNT and
values of W bits (that it gives none otherwise is the model's choice, log 31). The state's memory holds the k-th program
word at address k and nothing else, its FO is the launch's, its pc is ENTRY_PC, it has REG_COUNT registers, is neither
halted nor refused, has no event recorded, and has the invariant whenever ENTRY_PC is at most IMEM_SIZE. A channel given
initial contents holds that value and counts as written; every other channel is unwritten (R271, decisions D29, D33). That a
channel which the launch gives several values holds the last of them is the model's choice (DESIGN CHOICE, log 31). -/
def Obligations.LaunchStartsTheLoadedProgram : Prop :=
  ∀ (cfg : Config) (l : Launch),
    ((∃ s, launch cfg l = some s) ↔
      l.program.length ≤ cfg.imemSize ∧ ∀ e ∈ l.initial, e.1 < cfg.regCount ∧ e.2.2 < 2 ^ cfg.width) ∧
    ∀ s, launch cfg l = some s →
      (∀ a, s.imem.read a = l.program[a]?) ∧ s.fo = l.fo ∧ s.pc = cfg.entryPc ∧ s.cfg = cfg ∧ s.regs.length = cfg.regCount ∧
      s.halted = false ∧ s.refused = none ∧ s.ioLog = [] ∧ (cfg.entryPc ≤ cfg.imemSize → s.Inv) ∧
      (∀ (before after : List (Nat × Chan × Nat)) (i : Nat) (c : Chan) (v : Nat), l.initial = before ++ (i, c, v) :: after →
        (∀ e ∈ after, ¬ (e.1 = i ∧ e.2.1 = c)) → s.channel i c = some ⟨v, true⟩) ∧
      (∀ (i : Nat) (c : Chan), (∀ e ∈ l.initial, ¬ (e.1 = i ∧ e.2.1 = c)) → ∀ u, s.channel i c = some u → u.written = false)

/-- A program image under either byte order gives back the words it was made of. Under each IMAGE_BYTE_ORDER, the bytes of a
list of words, eight a word, read back as that list; under the default the most significant byte stands first (decision
D30). -/
def Obligations.ImageBytesGiveBackTheWords : Prop :=
  ∀ (order : ByteOrder) (ws : List Insn),
    wordsOfImage order (ws.flatMap (bytesOfWord order)) = some ws ∧
      ∀ w : Insn, (bytesOfWord .msbFirst w)[0]? = some (w.extractLsb' 56 8) ∧
        (bytesOfWord .lsbFirst w)[0]? = some (w.extractLsb' 0 8)

/-- Statements of Table 2 assemble to the words the spec derives for them. T-ASM text of Table 2, with its comments, blank lines
and label, assembles to the words of 95_test_vectors.md section 2; and the statement with the mnemonic OUT is refused. -/
def Obligations.TableTwoStatementsAssemble : Prop :=
  Tasm.assemble "//No operation\nNOP R0.___ R0.xyz R0.xyz\n\nADD R[12 + offset ].x__ I(0xcafe) 0\n" =
    .ok [0x0000000000000000, 0x8001B0300000CAFE] ∧
  Tasm.assemble "ADD R[13+ offset].xyz R[12 + offset].xyz R[11 + offset].-x-y-z\n" = .ok [0x0001FC340019C00B] ∧
  Tasm.assemble "ADD <BRANCH.NOT_ZERO> @36.____ R[55].xyz R[56].-x-y-z\nADD R[3]._y_ R[3].xxx R[0].xxx\n" =
    .ok [0x02810090006FC038, 0x0001080C14060A00] ∧
  Tasm.assemble "GenerateRay:\nADD <BRANCH.ALWAYS> @GenerateRay.____ R[0].xyz R[0].xyz\n" = .ok [0x0201000000000000] ∧
  Tasm.assemble "OUT R[0 + offset].xyz R[10 + offset].xyz R[12 + offset].xyz\n" = .error .mnemonicOut

/-- Every word a transcriber emits decodes to the statement's instruction, with EOF = 0. When the transcriber gives a statement
a word, that word decodes under the spec's default parameters, and under every configuration, to an instruction, which is
the one the statement names; its EOF bit is 0, and NOP statements give the all-zero word. -/
def Obligations.TranscribedWordsDecode : Prop :=
  ∀ (labels : List (String × Nat)) (st : Tasm.Statement) (w : Insn), Tasm.wordOf labels st = .ok w →
    (∃ i, Tasm.instrOf labels st = .ok i ∧ ∀ cfg : Config, decode cfg w = .ok i) ∧ fieldEof w = false ∧
      (st.mnemonic = "NOP" → w = 0)

/-- With a selector SCOP/LOP other than 0, ADD, DIV, MUL, SQRT (R-form) and ADD, MUL, SQRT (I-form) complete and write the
table's function. SCOP/LOP other than 0 reaches an instruction only where SCOP_TABLE is supplied (decision D20). Sources
readable and destination writable, ADD, DIV, MUL or SQRT in the R-form, or ADD, MUL or SQRT in the I-form, with such a
selector answers a next state in which each enabled channel holds the table's function of the operation, the selector and
the two prepared lanes (the literal, itself where W = 32; under another width, which R82 leaves open, the model's free value
of it, DESIGN CHOICE, log 3, and 0 in the I-form), uninterpreted; a lane that DIV divides by 0 holds a draw. All of this is
the model's choice (log 18), as are the cases not covered here: the I-form of DIV draws, LOGIC takes LOGIC_FN of the
selector and IO ignores it. Nothing else changes: every other channel, FO, the memory, the history and the configuration
stay, pc goes to the next instruction, EOF = 1 sets halted. -/
def Obligations.ScopSelectedFormsWriteTheTableFunction : Prop :=
  (∀ (ctl : Control) (d : Dst) (a b : Src) (s : State), ctl.scop ≠ 0 → s.Readable a → s.Readable b → s.Writable d →
    ∃ va vb, sourceOperand s .source1 a = some va ∧ sourceOperand s .source0 b = some vb ∧
      ∀ p ∈ [(AluOp.add, Instr.add ctl d a b), (.div, .div ctl d a b), (.mul, .mul ctl d a b),
          (.sqrt, .sqrt ctl d a b)],
        ∃ (r : Vec s.cfg.width) (t : State), exec p.2 s = .next t ∧ Writes s t d r ∧ Advances s t ctl.eof (s.pc + 1) [] ∧
          ∀ c, r.get c = if p.1 = .div ∧ vb.get c = 0 then draw s .quotient c
            else Config.scopFunction p.1 ctl.scop (va.get c) (vb.get c)) ∧
  ∀ (ctl : Control) (d : Dst) (imm : Word) (s : State), ctl.scop ≠ 0 → s.Writable d →
    ∀ p ∈ [(AluOp.add, Instr.addI ctl d imm), (.mul, .mulI ctl d imm), (.sqrt, .sqrtI ctl d imm)],
      ∃ (r : Vec s.cfg.width) (t : State), exec p.2 s = .next t ∧ Writes s t d r ∧ Advances s t ctl.eof (s.pc + 1) [] ∧
        ∀ c, r.get c = Config.scopFunction p.1 ctl.scop (literalValue s.cfg.width imm) 0

/-- Under every ZERO_RULE and SIGN_RULE the branches go where the two conditions say. Let Z be the condition that the configured
ZERO_RULE gives of the result (all lanes 0; lane x 0; or the supplied rule, uninterpreted) and S that of the configured
SIGN_RULE (bit W-1 of lane x, of any lane, of every lane, or the supplied rule). Sources readable (and LOGIC_FN supplied for
LOGIC), each of the seven branch types fused with each operation completes, and goes to its target exactly when its
condition of Z and S holds, else to the next instruction; no register changes (decisions D12 to D14, log 12). -/
def Obligations.EveryZeroAndSignRuleDecidesTheBranches : Prop :=
  ∀ (op : AluOp) (ctl : Control) (tgt : BitVec 8) (a b : Src) (s : State), s.Readable a → s.Readable b →
    (op = .logic → s.cfg.logicFn = .supplied) →
    ∃ va vb, sourceOperand s .source1 a = some va ∧ sourceOperand s .source0 b = some vb ∧
      ∀ Z S : Bool,
        (let r := aluResult op ctl.scop s va vb;
          (s.cfg.zeroRule = .allLanes → (Z = true ↔ r.x = 0 ∧ r.y = 0 ∧ r.z = 0)) ∧
          (s.cfg.zeroRule = .laneX → (Z = true ↔ r.x = 0)) ∧
          (s.cfg.zeroRule = .supplied → Z = Config.zeroFunction r) ∧
          (s.cfg.signRule = .laneX → S = r.x.getLsbD (s.cfg.width - 1)) ∧
          (s.cfg.signRule = .anyLane → S = (r.x.getLsbD (s.cfg.width - 1) || r.y.getLsbD (s.cfg.width - 1) || r.z.getLsbD (s.cfg.width - 1))) ∧
          (s.cfg.signRule = .everyLane → S = (r.x.getLsbD (s.cfg.width - 1) && r.y.getLsbD (s.cfg.width - 1) && r.z.getLsbD (s.cfg.width - 1))) ∧
          (s.cfg.signRule = .supplied → S = Config.signFunction r)) →
        ∀ row ∈ [(BranchType.always, true), (.zero, Z), (.notZero, !Z), (.sign, S), (.notSign, !S), (.zeroOrSign, Z || S),
            (.zeroOrNotSign, Z || !S)],
          ∃ t, exec (.ofBranch op row.1 ctl tgt a b) s = .next t ∧ t.regs = s.regs ∧
            Advances s t ctl.eof (if row.2 then tgt.toNat else s.pc + 1) []

/-- An instruction sees all that the one before it wrote: the assumption NO_HAZARDS. Where NO_HAZARDS is assumed (the default),
when an instruction with a destination completes, a source of the next instruction that names the destination register
reads, in every lane whose swizzle selects a channel just written, the value just written (negated if its sign bit is set),
with no delay. This is the named assumption NO_HAZARDS of the spec (decision D32, log 21), as this model has it. -/
def Obligations.NoHazardBetweenInstructions : Prop :=
  ∀ (i : Instr) (d : Dst) (s t : State), s.cfg.noHazards = true → exec i s = .next t → destinationOf i = some d →
    ∃ r : Vec t.cfg.width, Writes s t d r ∧
      ∀ (site : DrawSite) (o : Src) (v : Vec t.cfg.width), effIndex t o.addr o.displaced = effIndex s d.index d.displaced →
        sourceOperand t site o = some v →
        ∀ c, d.we.get (o.sel.get c) = true → v.get c = if o.neg.get c then -(r.get (o.sel.get c)) else r.get (o.sel.get c)
end

