-- ==== Sys2Proof/Laws/State.lean ====
section
/-! SUPPORT. One lemma for each field of State under each update that the machine makes of it, so that no later proof unfolds a
record update. -/

namespace Sys2Proof.Machine

/-! ## `retire` (40_operand_datapath.md R138, R139) -/

@[simp] theorem retire_cfg (eof : Bool) (target : Nat) (s : State) : (retire eof target s).cfg = s.cfg := rfl
@[simp] theorem retire_regs (eof : Bool) (target : Nat) (s : State) : (retire eof target s).regs = s.regs := rfl
@[simp] theorem retire_pc (eof : Bool) (target : Nat) (s : State) : (retire eof target s).pc = target := rfl
@[simp] theorem retire_fo (eof : Bool) (target : Nat) (s : State) : (retire eof target s).fo = s.fo := rfl
@[simp] theorem retire_imem (eof : Bool) (target : Nat) (s : State) : (retire eof target s).imem = s.imem := rfl
@[simp] theorem retire_halted (eof : Bool) (target : Nat) (s : State) : (retire eof target s).halted = (s.halted || eof) := rfl
@[simp] theorem retire_refused (eof : Bool) (target : Nat) (s : State) : (retire eof target s).refused = s.refused := rfl
@[simp] theorem retire_ioLog (eof : Bool) (target : Nat) (s : State) : (retire eof target s).ioLog = s.ioLog := rfl
@[simp] theorem retire_tick (eof : Bool) (target : Nat) (s : State) : (retire eof target s).tick = s.tick + 1 := rfl

/-! ## `markRefused` (60_exceptions.md R243) -/

@[simp] theorem markRefused_cfg (r : Refusal) (s : State) : (markRefused r s).cfg = s.cfg := rfl
@[simp] theorem markRefused_regs (r : Refusal) (s : State) : (markRefused r s).regs = s.regs := rfl
@[simp] theorem markRefused_pc (r : Refusal) (s : State) : (markRefused r s).pc = s.pc := rfl
@[simp] theorem markRefused_fo (r : Refusal) (s : State) : (markRefused r s).fo = s.fo := rfl
@[simp] theorem markRefused_imem (r : Refusal) (s : State) : (markRefused r s).imem = s.imem := rfl
@[simp] theorem markRefused_halted (r : Refusal) (s : State) : (markRefused r s).halted = s.halted := rfl
@[simp] theorem markRefused_refused (r : Refusal) (s : State) : (markRefused r s).refused = some r := rfl
@[simp] theorem markRefused_ioLog (r : Refusal) (s : State) : (markRefused r s).ioLog = s.ioLog := rfl
@[simp] theorem markRefused_tick (r : Refusal) (s : State) : (markRefused r s).tick = s.tick := rfl

/-! ## `placeWord` and `State.withFetchWord` -/

@[simp] theorem placeWord_cfg (s : State) (w : Insn) : (placeWord s w).cfg = s.cfg := rfl
@[simp] theorem placeWord_regs (s : State) (w : Insn) : (placeWord s w).regs = s.regs := rfl
@[simp] theorem placeWord_pc (s : State) (w : Insn) : (placeWord s w).pc = fetchSlot s := rfl
@[simp] theorem placeWord_fo (s : State) (w : Insn) : (placeWord s w).fo = s.fo := rfl
@[simp] theorem placeWord_imem (s : State) (w : Insn) : (placeWord s w).imem = s.imem.write (fetchSlot s) w := rfl
@[simp] theorem placeWord_halted (s : State) (w : Insn) : (placeWord s w).halted = false := rfl
@[simp] theorem placeWord_refused (s : State) (w : Insn) : (placeWord s w).refused = none := rfl
@[simp] theorem placeWord_ioLog (s : State) (w : Insn) : (placeWord s w).ioLog = s.ioLog := rfl
@[simp] theorem placeWord_tick (s : State) (w : Insn) : (placeWord s w).tick = s.tick := rfl

theorem withFetchWord_eq_placeWord (s : State) (nbits w : Nat) :
    s.withFetchWord nbits w = placeWord s (BitVec.ofNat 64 (w % 2 ^ nbits)) := rfl

/-! ## Vectors -/

@[simp] theorem Vec3_get_x {α : Type} (v : Vec3 α) : v.get .x = v.x := rfl
@[simp] theorem Vec3_get_y {α : Type} (v : Vec3 α) : v.get .y = v.y := rfl
@[simp] theorem Vec3_get_z {α : Type} (v : Vec3 α) : v.get .z = v.z := rfl
@[simp] theorem Vec3_ofLanes_x {α : Type} (f : Chan → α) : (Vec3.ofLanes f).x = f .x := rfl
@[simp] theorem Vec3_ofLanes_y {α : Type} (f : Chan → α) : (Vec3.ofLanes f).y = f .y := rfl
@[simp] theorem Vec3_ofLanes_z {α : Type} (f : Chan → α) : (Vec3.ofLanes f).z = f .z := rfl
@[simp] theorem Vec3_all_get {α : Type} (a : α) (c : Chan) : (Vec3.all a).get c = a := by cases c <;> rfl

@[simp] theorem Vec3_get_readings {W : Nat} (v : Vec W) (c : Chan) : v.readings.get c = (v.get c).toNat := by cases c <;> rfl

/-- The readings of a vector of channel values have W bits. -/
@[simp] theorem Vec3_below_readings {W : Nat} (v : Vec W) : v.readings.below (2 ^ W) = true := by
  simp [Vec3.below, Vec3.readings, BitVec.isLt]

@[simp] theorem Vec3_get_ofLanes {α : Type} (f : Chan → α) (c : Chan) : (Vec3.ofLanes f).get c = f c := by
  cases c <;> rfl

end Sys2Proof.Machine
end

