-- ==== Sys2Proof/Laws/Datapath.lean ====
section
/-! SUPPORT. For each shared operation, once, everything it can do: the lemmas that later proofs cite instead of unfolding it. -/

namespace Sys2Proof.Machine

/-! ## Registers and operands -/

/-- A register is there exactly below REG_COUNT (40_operand_datapath.md R132). -/
theorem regAt_isSome (s : State) (e : Nat) : (regAt s e).isSome = true ↔ e < s.regs.length := by
  simp [regAt]

/-- A written channel gives its value, under NO_HAZARDS (10_state.md R23, 70_reset_and_hazards.md R280). -/
theorem read_of_written {W : Nat} {cfg : Config} {c : Channel} (hw : c.written = true) (hh : cfg.noHazards = true)
    (free : BitVec W) : c.read cfg free = BitVec.ofNat W c.value := by
  simp [Channel.read, hw, hh]

/-- An unwritten channel gives the draw (10_state.md R23). -/
theorem read_of_unwritten {W : Nat} {cfg : Config} {c : Channel} (hw : c.written = false) (free : BitVec W) :
    c.read cfg free = free := by
  simp [Channel.read, hw]

/-- Without NO_HAZARDS every channel gives the draw (log 21). -/
theorem read_of_hazards {W : Nat} {cfg : Config} {c : Channel} (hh : cfg.noHazards = false) (free : BitVec W) :
    c.read cfg free = free := by
  simp [Channel.read, hh]

/-- A source operand is there exactly when its effective index is below REG_COUNT (R132). -/
theorem sourceOperand_isSome (s : State) (site : DrawSite) (o : Src) :
    (sourceOperand s site o).isSome = true ↔ effIndex s o.addr o.displaced < s.regs.length := by
  rw [← regAt_isSome]
  unfold sourceOperand
  cases regAt s (effIndex s o.addr o.displaced) <;> simp

/-- What a prepared source is, lane by lane (R133). -/
theorem sourceOperand_eq_some {s : State} {site : DrawSite} {o : Src} {v : Vec s.cfg.width} (h : sourceOperand s site o = some v) :
    ∃ r, regAt s (effIndex s o.addr o.displaced) = some r ∧ v = Vec3.ofLanes (sourceLane s site o r) := by
  unfold sourceOperand at h
  split at h
  · cases h
  · rename_i r hr
    exact ⟨r, hr, (Option.some.inj h).symm⟩

/-! ## Write-back -/

/-- Everything a write-back that succeeds can have done (R132, R136): no write enable and nothing changed, or the enabled channels of
one register below REG_COUNT, and nothing else. -/
theorem writeBack_eq_some {W : Nat} {d : Dst} {r : Vec W} {s t : State} (h : writeBack d r s = some t) :
    (anyEnabled d.we = false ∧ t = s) ∨
    (anyEnabled d.we = true ∧ ∃ old, s.regs[effIndex s d.index d.displaced]? = some old ∧
      t = { s with regs := s.regs.set (effIndex s d.index d.displaced) (mergeReg d.we r old) }) := by
  unfold writeBack at h
  split at h
  · rename_i hw
    split at h
    · cases h
    · rename_i old hold
      exact .inr ⟨hw, old, hold, (Option.some.inj h).symm⟩
  · rename_i hw
    exact .inl ⟨by simpa using hw, (Option.some.inj h).symm⟩

/-- A write-back succeeds exactly when it names no register or one below REG_COUNT (R132). -/
theorem writeBack_isSome {W : Nat} (d : Dst) (r : Vec W) (s : State) :
    (writeBack d r s).isSome = true ↔
      (anyEnabled d.we = true → effIndex s d.index d.displaced < s.regs.length) := by
  rw [← regAt_isSome]
  unfold writeBack
  split
  · rename_i hw
    cases regAt s (effIndex s d.index d.displaced) <;> simp [hw]
  · rename_i hw
    simp [hw]

/-- Everything `completeWrite` can answer: the write-back's state retired, or the range refusal. -/
theorem completeWrite_eq_next {W : Nat} {eof : Bool} {d : Dst} {r : Vec W} {s t : State} (h : completeWrite eof d r s = .next t) :
    ∃ u, writeBack d r s = some u ∧ t = retire eof (u.pc + 1) u := by
  unfold completeWrite at h
  split at h
  · cases h
  · rename_i u hu
    exact ⟨u, hu, (Host.Outcome.next.inj h).symm⟩

/-! ## Results -/

/-- Under the selector 0 an operation is the plain one (30_encoding.md R101). -/
@[simp] theorem aluLane_zero (op : AluOp) (s : State) (lane : Chan) (a b : BitVec s.cfg.width) :
    aluLane op 0#4 s lane a b = plainLane op s lane a b := rfl

/-- Under any other selector it is what SCOP_TABLE gives (R101). -/
theorem aluLane_of_ne {scop : BitVec 4} (h : scop ≠ 0) (op : AluOp) (s : State) (lane : Chan)
    (a b : BitVec s.cfg.width) : aluLane op scop s lane a b = scopLane op scop (draw s .quotient lane) a b := if_neg h

/-- Under every selector LOGIC is LOGIC_FN of that selector (42_logic_io.md R190). -/
theorem aluLane_logic (scop : BitVec 4) (s : State) (lane : Chan) (a b : BitVec s.cfg.width) :
    aluLane .logic scop s lane a b = logicLane scop a b := by
  unfold aluLane
  split
  · rename_i h
    rw [h]
    rfl
  · rfl

/-- A result, lane by lane (40_operand_datapath.md R135). -/
@[simp] theorem aluResult_get (op : AluOp) (scop : BitVec 4) (s : State) (a b : Vec s.cfg.width) (c : Chan) :
    (aluResult op scop s a b).get c = aluLane op scop s c (a.get c) (b.get c) := by
  cases c <;> rfl

/-- A literal where W = 32: as it stands (30_encoding.md R82). -/
@[simp] theorem literalValue_32 (imm : Word) : literalValue 32 imm = imm := by simp [literalValue]

/-- A literal under another width is a free value (decision D1). -/
theorem literalValue_of_ne {W : Nat} (h : W ≠ 32) (imm : Word) : literalValue W imm = Config.literalFunction W imm := if_neg h

/-- A literal where W = 32, by its unsigned reading. -/
theorem literalValue_toNat {W : Nat} (h : W = 32) (imm : Word) : (literalValue W imm).toNat = imm.toNat := by
  subst h
  simp

/-- The literal is in every lane (R134). -/
@[simp] theorem literalOperand_get (W : Nat) (imm : Word) (c : Chan) : (literalOperand W imm).get c = literalValue W imm := by
  cases c <;> rfl

/-- The I-form's operand b is 0 in every lane (R134). -/
@[simp] theorem zeroOperand_get (W : Nat) (c : Chan) : (zeroOperand W).get c = 0#W := by
  cases c <;> rfl

/-- What IO brings in, lane by lane (42_logic_io.md R192). -/
@[simp] theorem ioInput_get (s : State) (c : Chan) : (ioInput s).get c = draw s .input c := by
  cases c <;> rfl

/-! ## The four forms -/

/-- Everything an R-form that completes can have done (R130). -/
theorem rForm_eq_next {op : AluOp} {ctl : Control} {d : Dst} {a b : Src} {s t : State}
    (h : rForm op ctl d a b s = .next t) :
    ∃ va vb, sourceOperand s .source1 a = some va ∧ sourceOperand s .source0 b = some vb ∧ aluRefusal op s = none ∧
      completeWrite ctl.eof d (aluResult op ctl.scop s va vb) s = .next t := by
  unfold rForm at h
  split at h
  · rename_i va vb ha hb
    split at h
    · cases h
    · rename_i hg
      exact ⟨va, vb, ha, hb, hg, h⟩
  · cases h

/-- Everything an I-form that completes can have done (R130, R134). -/
theorem iForm_eq_next {op : AluOp} {ctl : Control} {d : Dst} {imm : Word} {s t : State}
    (h : iForm op ctl d imm s = .next t) :
    aluRefusal op s = none ∧
      completeWrite ctl.eof d (aluResult op ctl.scop s (literalOperand s.cfg.width imm) (zeroOperand s.cfg.width)) s = .next t := by
  unfold iForm at h
  split at h
  · cases h
  · rename_i hg
    exact ⟨hg, h⟩

/-- Everything a branch that completes can have done (43_branch.md R210): only `pc`, the mark `halted` and the tick move. -/
theorem branchForm_eq_next {op : AluOp} {ty : BranchType} {ctl : Control} {tgt : BitVec 8} {a b : Src} {s t : State}
    (h : branchForm op ty ctl tgt a b s = .next t) :
    ∃ va vb, sourceOperand s .source1 a = some va ∧ sourceOperand s .source0 b = some vb ∧ aluRefusal op s = none ∧
      t = retire ctl.eof (if branchTaken s.cfg ty (aluResult op ctl.scop s va vb) then tgt.toNat else s.pc + 1) s := by
  unfold branchForm at h
  split at h
  · rename_i va vb ha hb
    split at h
    · cases h
    · rename_i hg
      exact ⟨va, vb, ha, hb, hg, (Host.Outcome.next.inj h).symm⟩
  · cases h

/-- Everything an IO transfer that completes can have done (42_logic_io.md R192): one event, and draws in the enabled channels. -/
theorem ioTransfer_eq_next {W : Nat} {eof : Bool} {d : Dst} {a b : Vec W} {s t : State} (h : ioTransfer eof d a b s = .next t) :
    s.cfg.ioModel = .opaqueEvents ∧
      completeWrite eof d (ioInput s) { s with ioLog := s.ioLog ++ [ioEvent d a b s] } = .next t := by
  unfold ioTransfer at h
  split at h
  · cases h
  · rename_i hm
    exact ⟨hm, h⟩

/-! ## Fetch -/

/-- When there is an instruction to execute, and which (R130 steps 1 and 2). -/
theorem fetchDecode_eq_instruction {s : State} {i : Instr} (h : fetchDecode s = .instruction i) :
    s.refused = none ∧ s.halted = false ∧ ∃ w, ifetch s s.pc = some w ∧ decode s.cfg w = .ok i := by
  unfold fetchDecode at h
  split at h
  · cases h
  · rename_i hr
    split at h
    · cases h
    · rename_i hh
      split at h
      · cases h
      · rename_i w hw
        split at h
        · cases h
        · rename_i j hj
          obtain rfl : j = i := by simpa using h
          exact ⟨hr, by simpa using hh, w, hw, hj⟩

/-- A fetch succeeds only below IMEM_SIZE, and gives what is loaded there (20_memory.md R50). -/
theorem ifetch_eq_some {s : State} {a : Nat} {w : Insn} (h : ifetch s a = some w) :
    a < s.cfg.imemSize ∧ s.imem.read a = some w := by
  unfold ifetch at h
  split at h
  · rename_i ha
    exact ⟨ha, h⟩
  · cases h

/-- A step that completes has fetched and decoded an instruction, and is its `exec`. -/
theorem step_eq_next {s t : State} (h : step s = .next t) :
    ∃ i, fetchDecode s = .instruction i ∧ exec i s = .next t := by
  unfold step at h
  split at h
  · rename_i i hi
    exact ⟨i, hi, h⟩
  · cases h
  · cases h

end Sys2Proof.Machine
end

