-- ==== Sys2Proof/Laws/Decode.lean ====
section
/-! SUPPORT. What each field of a packed word is (30_encoding.md R72), and what masking a packed word gives. -/

namespace Sys2Proof

section Word

variable (imm : BitVec 1) (scop : BitVec 4) (eof bbit : BitVec 1) (bop rsvd opcode mode we : BitVec 3)
  (dst : BitVec 8) (sign1xy : BitVec 2) (low : BitVec 32)

@[simp] theorem fieldImm_packWord :
    fieldImm (packWord imm scop eof bbit bop rsvd opcode mode we dst sign1xy low) = imm.getLsbD 0 := by
  unfold fieldImm packWord
  repeat rw [BitVec.getLsbD_append]
  rfl

@[simp] theorem fieldScop_packWord :
    fieldScop (packWord imm scop eof bbit bop rsvd opcode mode we dst sign1xy low) = scop := by
  unfold fieldScop packWord
  repeat rw [BitVec.extractLsb'_append_eq_of_le (by decide)]
  rw [BitVec.extractLsb'_append_eq_of_add_le (by decide)]
  simp

@[simp] theorem fieldEof_packWord :
    fieldEof (packWord imm scop eof bbit bop rsvd opcode mode we dst sign1xy low) = eof.getLsbD 0 := by
  unfold fieldEof packWord
  repeat rw [BitVec.getLsbD_append]
  rfl

@[simp] theorem fieldBbit_packWord :
    fieldBbit (packWord imm scop eof bbit bop rsvd opcode mode we dst sign1xy low) = bbit.getLsbD 0 := by
  unfold fieldBbit packWord
  repeat rw [BitVec.getLsbD_append]
  rfl

@[simp] theorem fieldBop_packWord :
    fieldBop (packWord imm scop eof bbit bop rsvd opcode mode we dst sign1xy low) = bop := by
  unfold fieldBop packWord
  repeat rw [BitVec.extractLsb'_append_eq_of_le (by decide)]
  rw [BitVec.extractLsb'_append_eq_of_add_le (by decide)]
  simp

@[simp] theorem fieldReserved_packWord :
    fieldReserved (packWord imm scop eof bbit bop rsvd opcode mode we dst sign1xy low) = rsvd := by
  unfold fieldReserved packWord
  repeat rw [BitVec.extractLsb'_append_eq_of_le (by decide)]
  rw [BitVec.extractLsb'_append_eq_of_add_le (by decide)]
  simp

@[simp] theorem fieldOpcode_packWord :
    fieldOpcode (packWord imm scop eof bbit bop rsvd opcode mode we dst sign1xy low) = opcode := by
  unfold fieldOpcode packWord
  repeat rw [BitVec.extractLsb'_append_eq_of_le (by decide)]
  rw [BitVec.extractLsb'_append_eq_of_add_le (by decide)]
  simp

@[simp] theorem fieldMode_packWord :
    fieldMode (packWord imm scop eof bbit bop rsvd opcode mode we dst sign1xy low) = mode := by
  unfold fieldMode packWord
  repeat rw [BitVec.extractLsb'_append_eq_of_le (by decide)]
  rw [BitVec.extractLsb'_append_eq_of_add_le (by decide)]
  simp

@[simp] theorem fieldWe_packWord :
    fieldWe (packWord imm scop eof bbit bop rsvd opcode mode we dst sign1xy low) = ⟨we.getLsbD 2, we.getLsbD 1, we.getLsbD 0⟩ := by
  unfold fieldWe packWord
  repeat rw [BitVec.getLsbD_append]
  rfl

@[simp] theorem fieldDstIndex_packWord :
    fieldDstIndex (packWord imm scop eof bbit bop rsvd opcode mode we dst sign1xy low) = dst := by
  unfold fieldDstIndex packWord
  repeat rw [BitVec.extractLsb'_append_eq_of_le (by decide)]
  rw [BitVec.extractLsb'_append_eq_of_add_le (by decide)]
  simp

@[simp] theorem fieldSign1_packWord :
    fieldSign1 (packWord imm scop eof bbit bop rsvd opcode mode we dst sign1xy low) = ⟨sign1xy.getLsbD 1, sign1xy.getLsbD 0, low.getLsbD 31⟩ := by
  unfold fieldSign1 packWord
  repeat rw [BitVec.getLsbD_append]
  rfl

@[simp] theorem fieldSwz1_packWord :
    fieldSwz1 (packWord imm scop eof bbit bop rsvd opcode mode we dst sign1xy low) = ⟨low.extractLsb' 29 2, low.extractLsb' 27 2, low.extractLsb' 25 2⟩ := by
  unfold fieldSwz1 packWord
  repeat rw [BitVec.extractLsb'_append_eq_of_add_le (by decide)]

@[simp] theorem fieldSrc1Addr_packWord :
    fieldSrc1Addr (packWord imm scop eof bbit bop rsvd opcode mode we dst sign1xy low) = low.extractLsb' 17 8 := by
  unfold fieldSrc1Addr packWord
  repeat rw [BitVec.extractLsb'_append_eq_of_add_le (by decide)]

@[simp] theorem fieldSign0_packWord :
    fieldSign0 (packWord imm scop eof bbit bop rsvd opcode mode we dst sign1xy low) = ⟨low.getLsbD 16, low.getLsbD 15, low.getLsbD 14⟩ := by
  unfold fieldSign0 packWord
  repeat rw [BitVec.getLsbD_append]
  rfl

@[simp] theorem fieldSwz0_packWord :
    fieldSwz0 (packWord imm scop eof bbit bop rsvd opcode mode we dst sign1xy low) = ⟨low.extractLsb' 12 2, low.extractLsb' 10 2, low.extractLsb' 8 2⟩ := by
  unfold fieldSwz0 packWord
  repeat rw [BitVec.extractLsb'_append_eq_of_add_le (by decide)]

@[simp] theorem fieldSrc0Addr_packWord :
    fieldSrc0Addr (packWord imm scop eof bbit bop rsvd opcode mode we dst sign1xy low) = low.extractLsb' 0 8 := by
  unfold fieldSrc0Addr packWord
  repeat rw [BitVec.extractLsb'_append_eq_of_add_le (by decide)]

@[simp] theorem fieldImmv_packWord :
    fieldImmv (packWord imm scop eof bbit bop rsvd opcode mode we dst sign1xy low) = low := by
  unfold fieldImmv packWord
  repeat rw [BitVec.extractLsb'_append_eq_of_add_le (by decide)]
  simp

@[simp] theorem bit47_packWord :
    (packWord imm scop eof bbit bop rsvd opcode mode we dst sign1xy low).getLsbD 47 = mode.getLsbD 2 := by
  unfold packWord
  repeat rw [BitVec.getLsbD_append]
  rfl

@[simp] theorem bit46_packWord :
    (packWord imm scop eof bbit bop rsvd opcode mode we dst sign1xy low).getLsbD 46 = mode.getLsbD 1 := by
  unfold packWord
  repeat rw [BitVec.getLsbD_append]
  rfl

@[simp] theorem bit45_packWord :
    (packWord imm scop eof bbit bop rsvd opcode mode we dst sign1xy low).getLsbD 45 = mode.getLsbD 0 := by
  unfold packWord
  repeat rw [BitVec.getLsbD_append]
  rfl

/-- Masking a packed word masks each field. -/
theorem packWord_and (imm' : BitVec 1) (scop' : BitVec 4) (eof' bbit' : BitVec 1) (bop' rsvd' opcode' mode' we' : BitVec 3)
    (dst' : BitVec 8) (sign1xy' : BitVec 2) (low' : BitVec 32) :
    packWord imm scop eof bbit bop rsvd opcode mode we dst sign1xy low &&&
        packWord imm' scop' eof' bbit' bop' rsvd' opcode' mode' we' dst' sign1xy' low' =
      packWord (imm &&& imm') (scop &&& scop') (eof &&& eof') (bbit &&& bbit') (bop &&& bop') (rsvd &&& rsvd')
        (opcode &&& opcode') (mode &&& mode') (we &&& we') (dst &&& dst') (sign1xy &&& sign1xy') (low &&& low') := by
  unfold packWord
  repeat rw [BitVec.and_append]

end Word

section Sources

variable (sign1z : BitVec 1) (swz1 : BitVec 6) (addr1 : BitVec 8) (sign0 : BitVec 3) (swz0 : BitVec 6) (addr0 : BitVec 8)

@[simp] theorem bit31_packSources : (packSources sign1z swz1 addr1 sign0 swz0 addr0).getLsbD 31 = sign1z.getLsbD 0 := by
  unfold packSources
  repeat rw [BitVec.getLsbD_append]
  rfl

@[simp] theorem bit16_packSources : (packSources sign1z swz1 addr1 sign0 swz0 addr0).getLsbD 16 = sign0.getLsbD 2 := by
  unfold packSources
  repeat rw [BitVec.getLsbD_append]
  rfl

@[simp] theorem bit15_packSources : (packSources sign1z swz1 addr1 sign0 swz0 addr0).getLsbD 15 = sign0.getLsbD 1 := by
  unfold packSources
  repeat rw [BitVec.getLsbD_append]
  rfl

@[simp] theorem bit14_packSources : (packSources sign1z swz1 addr1 sign0 swz0 addr0).getLsbD 14 = sign0.getLsbD 0 := by
  unfold packSources
  repeat rw [BitVec.getLsbD_append]
  rfl

@[simp] theorem extract29_packSources : (packSources sign1z swz1 addr1 sign0 swz0 addr0).extractLsb' 29 2 = swz1.extractLsb' 4 2 := by
  unfold packSources
  repeat rw [BitVec.extractLsb'_append_eq_of_le (by decide)]
  rw [BitVec.extractLsb'_append_eq_of_add_le (by decide)]

@[simp] theorem extract27_packSources : (packSources sign1z swz1 addr1 sign0 swz0 addr0).extractLsb' 27 2 = swz1.extractLsb' 2 2 := by
  unfold packSources
  repeat rw [BitVec.extractLsb'_append_eq_of_le (by decide)]
  rw [BitVec.extractLsb'_append_eq_of_add_le (by decide)]

@[simp] theorem extract25_packSources : (packSources sign1z swz1 addr1 sign0 swz0 addr0).extractLsb' 25 2 = swz1.extractLsb' 0 2 := by
  unfold packSources
  repeat rw [BitVec.extractLsb'_append_eq_of_le (by decide)]
  rw [BitVec.extractLsb'_append_eq_of_add_le (by decide)]

@[simp] theorem extract17_packSources : (packSources sign1z swz1 addr1 sign0 swz0 addr0).extractLsb' 17 8 = addr1 := by
  unfold packSources
  repeat rw [BitVec.extractLsb'_append_eq_of_le (by decide)]
  rw [BitVec.extractLsb'_append_eq_of_add_le (by decide)]
  simp

@[simp] theorem extract12_packSources : (packSources sign1z swz1 addr1 sign0 swz0 addr0).extractLsb' 12 2 = swz0.extractLsb' 4 2 := by
  unfold packSources
  repeat rw [BitVec.extractLsb'_append_eq_of_le (by decide)]
  rw [BitVec.extractLsb'_append_eq_of_add_le (by decide)]

@[simp] theorem extract10_packSources : (packSources sign1z swz1 addr1 sign0 swz0 addr0).extractLsb' 10 2 = swz0.extractLsb' 2 2 := by
  unfold packSources
  repeat rw [BitVec.extractLsb'_append_eq_of_le (by decide)]
  rw [BitVec.extractLsb'_append_eq_of_add_le (by decide)]

@[simp] theorem extract8_packSources : (packSources sign1z swz1 addr1 sign0 swz0 addr0).extractLsb' 8 2 = swz0.extractLsb' 0 2 := by
  unfold packSources
  repeat rw [BitVec.extractLsb'_append_eq_of_le (by decide)]
  rw [BitVec.extractLsb'_append_eq_of_add_le (by decide)]

@[simp] theorem extract0_packSources : (packSources sign1z swz1 addr1 sign0 swz0 addr0).extractLsb' 0 8 = addr0 := by
  unfold packSources
  rw [BitVec.extractLsb'_append_eq_of_add_le (by decide)]
  simp

end Sources

/-! ## The small packed fields -/

@[simp] theorem packBools_bit2 (v : Vec3 Bool) : (packBools v).getLsbD 2 = v.x := by
  obtain ⟨_ | _, _ | _, _ | _⟩ := v <;> rfl

@[simp] theorem packBools_bit1 (v : Vec3 Bool) : (packBools v).getLsbD 1 = v.y := by
  obtain ⟨_ | _, _ | _, _ | _⟩ := v <;> rfl

@[simp] theorem packBools_bit0 (v : Vec3 Bool) : (packBools v).getLsbD 0 = v.z := by
  obtain ⟨_ | _, _ | _, _ | _⟩ := v <;> rfl

/-! The same three in the form to which `simp` turns a bit read. -/

@[simp] theorem packBools_getElem2 (v : Vec3 Bool) : (packBools v)[2] = v.x := packBools_bit2 v
@[simp] theorem packBools_getElem1 (v : Vec3 Bool) : (packBools v)[1] = v.y := packBools_bit1 v
@[simp] theorem packBools_getElem0 (v : Vec3 Bool) : (packBools v)[0] = v.z := packBools_bit0 v

/-- The decoder reads from a packed selection the channels it was packed from (R79). -/
@[simp] theorem swizzleOf_packSwizzle (sel : Vec3 Chan) :
    swizzleOf ⟨(packSwizzle sel).extractLsb' 4 2, (packSwizzle sel).extractLsb' 2 2, (packSwizzle sel).extractLsb' 0 2⟩ =
      some sel := by
  obtain ⟨_ | _ | _, _ | _ | _, _ | _ | _⟩ := sel <;> decide

/-! ## What the decoder's parts read from the three kinds of encoded word -/

/-- The fields and operands of an R-form word (R75, R90). -/
theorem fields_encodeRForm (opcode : BitVec 3) (ctl : Control) (d : Dst) (a b : Src) :
    let w := encodeRForm opcode ctl d a b
    decodeSrc1 w = some a ∧ decodeSrc0 w = some b ∧ decodeDstRForm w = d ∧ fieldReserved w = 0 ∧ fieldScop w = ctl.scop ∧
      fieldEof w = ctl.eof ∧ fieldOpcode w = opcode ∧ fieldBbit w = false ∧ fieldBop w = 0 ∧ fieldImm w = false := by
  obtain ⟨ai, ad, ⟨nx, ny, nz⟩, as⟩ := a
  simp only [encodeRForm, decodeSrc1, decodeSrc0, decodeDstRForm, encodeSources, encodeSign1XY, fieldSwz1_packWord, fieldSwz0_packWord, extract29_packSources, extract27_packSources,
    extract25_packSources, extract12_packSources, extract10_packSources, extract8_packSources, extract17_packSources,
    extract0_packSources, swizzleOf_packSwizzle, fieldSrc1Addr_packWord, fieldSrc0Addr_packWord, bit46_packWord, bit45_packWord,
    bit47_packWord, fieldSign1_packWord, fieldSign0_packWord, bit31_packSources, bit16_packSources, bit15_packSources,
    bit14_packSources, packBools_bit2, packBools_bit1, packBools_bit0, fieldDstIndex_packWord, fieldWe_packWord,
    Option.map_some, fieldReserved_packWord, fieldScop_packWord, fieldEof_packWord, fieldOpcode_packWord, fieldBbit_packWord,
    fieldBop_packWord, fieldImm_packWord]
  cases nx <;> cases ny <;> cases nz <;> cases ctl.eof <;> simp

/-- The fields and operands of a branch word (R81, R92). -/
theorem fields_encodeBranch (opcode bop : BitVec 3) (ctl : Control) (t : BitVec 8) (a b : Src) :
    let w := encodeBranch opcode bop ctl t a b
    decodeSrc1 w = some a ∧ decodeSrc0 w = some b ∧ fieldDstIndex w = t ∧ fieldWe w = ⟨false, false, false⟩ ∧
      w.getLsbD 47 = false ∧ fieldReserved w = 0 ∧ fieldScop w = ctl.scop ∧ fieldEof w = ctl.eof ∧ fieldOpcode w = opcode ∧
      fieldBbit w = true ∧ fieldBop w = bop ∧ fieldImm w = false := by
  obtain ⟨ai, ad, ⟨nx, ny, nz⟩, as⟩ := a
  simp only [encodeBranch, decodeSrc1, decodeSrc0, encodeSources, encodeSign1XY, fieldSwz1_packWord, fieldSwz0_packWord, extract29_packSources, extract27_packSources,
    extract25_packSources, extract12_packSources, extract10_packSources, extract8_packSources, extract17_packSources,
    extract0_packSources, swizzleOf_packSwizzle, fieldSrc1Addr_packWord, fieldSrc0Addr_packWord, bit46_packWord, bit45_packWord,
    bit47_packWord, fieldSign1_packWord, fieldSign0_packWord, bit31_packSources, bit16_packSources, bit15_packSources,
    bit14_packSources, packBools_bit2, packBools_bit1, packBools_bit0, fieldDstIndex_packWord, fieldWe_packWord,
    Option.map_some, fieldReserved_packWord, fieldScop_packWord, fieldEof_packWord, fieldOpcode_packWord, fieldBbit_packWord,
    fieldBop_packWord, fieldImm_packWord]
  cases nx <;> cases ny <;> cases nz <;> cases ctl.eof <;> simp

/-- The fields and the destination of an I-form word (R75, R91). -/
theorem fields_encodeIForm (opcode : BitVec 3) (ctl : Control) (d : Dst) (imm : Word) :
    let w := encodeIForm opcode ctl d imm
    decodeDstIForm w = d ∧ immFieldRefusal w = none ∧ fieldImmv w = imm ∧ fieldReserved w = 0 ∧ fieldScop w = ctl.scop ∧
      fieldEof w = ctl.eof ∧ fieldOpcode w = opcode ∧ fieldBbit w = false ∧ fieldBop w = 0 ∧ fieldImm w = true := by
  obtain ⟨di, dd, dw⟩ := d
  simp only [encodeIForm, decodeDstIForm, immFieldRefusal, fieldDstIndex_packWord, fieldWe_packWord, fieldReserved_packWord,
    fieldScop_packWord, fieldEof_packWord, fieldOpcode_packWord, fieldBbit_packWord, fieldBop_packWord, fieldImm_packWord,
    fieldImmv_packWord, fieldMode_packWord, fieldSign1_packWord, packBools_bit2, packBools_bit1, packBools_bit0]
  cases dd <;> cases ctl.eof <;> simp

/-! ## A word is the packing of its fields -/

theorem packWord_fields (w : Insn) :
    packWord (w.extractLsb' 63 1) (w.extractLsb' 59 4) (w.extractLsb' 58 1) (w.extractLsb' 57 1) (w.extractLsb' 54 3)
      (w.extractLsb' 51 3) (w.extractLsb' 48 3) (w.extractLsb' 45 3) (w.extractLsb' 42 3) (w.extractLsb' 34 8)
      (w.extractLsb' 32 2) (w.extractLsb' 0 32) = w := by
  unfold packWord
  repeat rw [BitVec.extractLsb'_append_extractLsb'_eq_extractLsb' (by decide)]
  simp

theorem packSources_fields (v : BitVec 32) :
    packSources (v.extractLsb' 31 1) (v.extractLsb' 25 6) (v.extractLsb' 17 8) (v.extractLsb' 14 3) (v.extractLsb' 8 6)
      (v.extractLsb' 0 8) = v := by
  unfold packSources
  repeat rw [BitVec.extractLsb'_append_extractLsb'_eq_extractLsb' (by decide)]
  simp

/-- A one-bit field of a word is the bit. -/
theorem ofBool_getLsbD (w : Insn) (k : Nat) : BitVec.ofBool (w.getLsbD k) = w.extractLsb' k 1 := by
  apply BitVec.eq_of_getLsbD_eq
  intro i hi
  obtain rfl : i = 0 := by omega
  cases h : w.getLsbD k <;> simp [h]

/-- The swizzle fields of a selection that the decoder read are the fields it was read from (R79). -/
theorem packSwizzle_of_swizzleOf {c : Vec3 (BitVec 2)} {sel : Vec3 Chan} (h : swizzleOf c = some sel) :
    packSwizzle sel = c.x ++ c.y ++ c.z := by
  obtain ⟨cx, cy, cz⟩ := c
  have key : ∀ cx cy cz : BitVec 2, (match swizzleOf ⟨cx, cy, cz⟩ with
      | none => true
      | some sel => packSwizzle sel == cx ++ cy ++ cz) = true := by decide
  have hk := key cx cy cz
  rw [h] at hk
  exact eq_of_beq hk

end Sys2Proof
end

