-- ==== Sys2Proof/Laws/Memory.lean ====
section
/-! SUPPORT. The instruction memory: every operation keeps the canonical form, and what a read gives after a load. -/

namespace Sys2Proof.Machine

theorem Memory_wf_nil : Memory.wf [] = true := rfl

theorem Memory_wf_cons (k : Nat) (w : Insn) (m : Memory) :
    Memory.wf ((k, w) :: m) = true ↔ (∀ c ∈ m, k < c.1) ∧ Memory.wf m = true := by
  simp [Memory.wf]

/-- The addresses of a memory after a load: the loaded one, and those it had. -/
theorem Memory_write_mem {m : Memory} {a : Nat} {w : Insn} {c : Nat × Insn} (h : c ∈ m.write a w) :
    c = (a, w) ∨ c ∈ m := by
  induction m with
  | nil => simpa [Memory.write] using h
  | cons p m ih =>
    obtain ⟨k, v⟩ := p
    simp only [Memory.write] at h
    split at h
    · simpa using h
    · split at h
      · rcases List.mem_cons.1 h with h | h
        · exact .inl h
        · exact .inr (List.mem_cons_of_mem _ h)
      · rcases List.mem_cons.1 h with h | h
        · exact .inr (h ▸ List.mem_cons_self ..)
        · exact (ih h).imp_right (List.mem_cons_of_mem _)

/-- Loading a word keeps the canonical form. -/
theorem Memory_write_wf {m : Memory} (a : Nat) (w : Insn) (h : m.wf = true) : (m.write a w).wf = true := by
  induction m with
  | nil => rfl
  | cons p m ih =>
    obtain ⟨k, v⟩ := p
    obtain ⟨hk, hm⟩ := (Memory_wf_cons k v m).1 h
    simp only [Memory.write]
    split
    · rename_i hak
      refine (Memory_wf_cons _ _ _).2 ⟨?_, h⟩
      rintro c hc
      rcases List.mem_cons.1 hc with rfl | hc
      · exact hak
      · exact hak.trans (hk c hc)
    · split
      · rename_i hak
        exact (Memory_wf_cons _ _ _).2 ⟨fun c hc => hak ▸ hk c hc, hm⟩
      · rename_i h1 h2
        refine (Memory_wf_cons _ _ _).2 ⟨?_, ih hm⟩
        intro c hc
        rcases Memory_write_mem hc with rfl | hc
        · exact Nat.lt_of_le_of_ne (Nat.le_of_not_lt h1) (Ne.symm h2)
        · exact hk c hc

/-- A read after a load: the loaded word at its address, what was there elsewhere. -/
theorem Memory_read_write (m : Memory) (a : Nat) (w : Insn) (b : Nat) :
    (m.write a w).read b = if b = a then some w else m.read b := by
  induction m with
  | nil => simp [Memory.write, Memory.read, eq_comm]
  | cons p m ih =>
    obtain ⟨k, v⟩ := p
    simp only [Memory.write]
    split
    · simp [Memory.read, eq_comm]
    · split
      · rename_i hak
        subst hak
        by_cases hb : b = a
        · simp [Memory.read, hb]
        · simp [Memory.read, hb, Ne.symm hb]
      · rename_i h1 h2
        by_cases hb : b = a
        · subst hb
          simp [Memory.read, ih, Ne.symm h2]
        · simp [Memory.read, ih, hb]

/-- Every address of a loaded program is at least its first. -/
theorem loadFrom_ge (a : Nat) (ws : List Insn) : ∀ c ∈ loadFrom a ws, a ≤ c.1 := by
  induction ws generalizing a with
  | nil => simp [loadFrom]
  | cons w ws ih =>
    intro c hc
    rcases List.mem_cons.1 hc with rfl | hc
    · exact Nat.le_refl _
    · exact Nat.le_of_succ_le (ih (a + 1) c hc)

/-- A loaded program is in canonical form (70_reset_and_hazards.md R271). -/
theorem loadFrom_wf (a : Nat) (ws : List Insn) : (loadFrom a ws).wf = true := by
  induction ws generalizing a with
  | nil => rfl
  | cons w ws ih => exact (Memory_wf_cons _ _ _).2 ⟨fun c hc => loadFrom_ge (a + 1) ws c hc, ih (a + 1)⟩

theorem reset_memory_wf : State.reset.imem.wf = true := rfl

/-- Placing a word for the next fetch keeps the canonical form. -/
theorem placeWord_wf (s : State) (w : Insn) (h : s.imem.wf = true) : (placeWord s w).imem.wf = true :=
  Memory_write_wf _ _ h

end Sys2Proof.Machine
end

