-- ==== Sys2Proof/Laws/PerInstr.lean ====
section
/-! SUPPORT. Laws stated of every instruction, one lemma per constructor of `Instr`. -/

-- One theorem after another: run side by side, this many would need more stack memory than the check allows.
set_option Elab.async false

namespace Sys2Proof.Laws

/-- The word of a well-formed instruction with SCOP/LOP = 0 selects the instruction's row of spec/opcode_table.json, whose masks are
"those of the default parameters" (INDEX.md). -/
def RowMatch.Statement (i : Instr) : Prop :=
  i.wellFormed = true → i.scop = 0 → (opcodeRow i).selects (encode i) = true

/-- An R-form word against an R-form row's mask. -/
theorem RowMatch.rForm (opcode : BitVec 3) (ctl : Control) (d : Dst) (a b : Src) (h : ctl.scop = 0) :
    encodeRForm opcode ctl d a b &&& 0xFBFF000000000000 = packWord 0 0 0 0 0 0 opcode 0 0 0 0 0 := by
  have hm : (0xFBFF000000000000 : Insn) = packWord 1 15 0 1 7 7 7 0 0 0 0 0 := by decide
  rw [hm, encodeRForm, h, packWord_and]
  have h7 : opcode &&& 7#3 = opcode := BitVec.and_allOnes
  simp [h7]

/-- An I-form word against an I-form row's mask. -/
theorem RowMatch.iForm (opcode : BitVec 3) (ctl : Control) (d : Dst) (imm : Word) (h : ctl.scop = 0) :
    encodeIForm opcode ctl d imm &&& 0xFBFFC00300000000 = packWord 1 0 0 0 0 0 opcode 4 0 0 0 0 := by
  have hm : (0xFBFFC00300000000 : Insn) = packWord 1 15 0 1 7 7 7 6 0 0 3 0 := by decide
  rw [hm, encodeIForm, h, packWord_and]
  have h7 : opcode &&& 7#3 = opcode := BitVec.and_allOnes
  have hmode : (if d.displaced then (5 : BitVec 3) else 4) &&& 6 = 4 := by cases d.displaced <;> decide
  rw [hmode]
  simp [h7]

/-- A branch word against a branch row's mask. -/
theorem RowMatch.branch (opcode bop : BitVec 3) (ctl : Control) (t : BitVec 8) (a b : Src) (h : ctl.scop = 0) :
    encodeBranch opcode bop ctl t a b &&& 0xFBFF9C0000000000 = packWord 0 0 0 1 bop 0 opcode 0 0 0 0 0 := by
  have hm : (0xFBFF9C0000000000 : Insn) = packWord 1 15 0 1 7 7 7 4 7 0 0 0 := by decide
  rw [hm, encodeBranch, h, packWord_and]
  have h7 : ∀ v : BitVec 3, v &&& 7#3 = v := fun v => BitVec.and_allOnes
  have hmode : packBools ⟨false, a.displaced, b.displaced⟩ &&& 4 = 0 := by
    cases a.displaced <;> cases b.displaced <;> decide
  rw [hmode]
  simp [h7]

theorem RowMatch.nop (eof : Bool) : RowMatch.Statement (.nop eof) := by
  intro _ _
  cases eof <;> decide

theorem RowMatch.add (ctl : Control) (d : Dst) (a b : Src) : RowMatch.Statement (.add ctl d a b) := by
  intro _ (h : ctl.scop = 0)
  simp only [OpcodeRow.selects, opcodeRow, encode, RowMatch.rForm _ _ _ _ _ h]
  decide

theorem RowMatch.div (ctl : Control) (d : Dst) (a b : Src) : RowMatch.Statement (.div ctl d a b) := by
  intro _ (h : ctl.scop = 0)
  simp only [OpcodeRow.selects, opcodeRow, encode, RowMatch.rForm _ _ _ _ _ h]
  decide

theorem RowMatch.mul (ctl : Control) (d : Dst) (a b : Src) : RowMatch.Statement (.mul ctl d a b) := by
  intro _ (h : ctl.scop = 0)
  simp only [OpcodeRow.selects, opcodeRow, encode, RowMatch.rForm _ _ _ _ _ h]
  decide

theorem RowMatch.sqrt (ctl : Control) (d : Dst) (a b : Src) : RowMatch.Statement (.sqrt ctl d a b) := by
  intro _ (h : ctl.scop = 0)
  simp only [OpcodeRow.selects, opcodeRow, encode, RowMatch.rForm _ _ _ _ _ h]
  decide

theorem RowMatch.logic (ctl : Control) (d : Dst) (a b : Src) : RowMatch.Statement (.logic ctl d a b) := by
  intro _ (h : ctl.scop = 0)
  simp only [OpcodeRow.selects, opcodeRow, encode, RowMatch.rForm _ _ _ _ _ h]
  decide

theorem RowMatch.io (ctl : Control) (d : Dst) (a b : Src) : RowMatch.Statement (.io ctl d a b) := by
  intro _ (h : ctl.scop = 0)
  simp only [OpcodeRow.selects, opcodeRow, encode, RowMatch.rForm _ _ _ _ _ h]
  decide

theorem RowMatch.addI (ctl : Control) (d : Dst) (imm : Word) : RowMatch.Statement (.addI ctl d imm) := by
  intro _ (h : ctl.scop = 0)
  simp only [OpcodeRow.selects, opcodeRow, encode, RowMatch.iForm _ _ _ _ h]
  decide

theorem RowMatch.divI (ctl : Control) (d : Dst) (imm : Word) : RowMatch.Statement (.divI ctl d imm) := by
  intro _ (h : ctl.scop = 0)
  simp only [OpcodeRow.selects, opcodeRow, encode, RowMatch.iForm _ _ _ _ h]
  decide

theorem RowMatch.mulI (ctl : Control) (d : Dst) (imm : Word) : RowMatch.Statement (.mulI ctl d imm) := by
  intro _ (h : ctl.scop = 0)
  simp only [OpcodeRow.selects, opcodeRow, encode, RowMatch.iForm _ _ _ _ h]
  decide

theorem RowMatch.sqrtI (ctl : Control) (d : Dst) (imm : Word) : RowMatch.Statement (.sqrtI ctl d imm) := by
  intro _ (h : ctl.scop = 0)
  simp only [OpcodeRow.selects, opcodeRow, encode, RowMatch.iForm _ _ _ _ h]
  decide

theorem RowMatch.logicI (ctl : Control) (d : Dst) (imm : Word) : RowMatch.Statement (.logicI ctl d imm) := by
  intro _ (h : ctl.scop = 0)
  simp only [OpcodeRow.selects, opcodeRow, encode, RowMatch.iForm _ _ _ _ h]
  decide

theorem RowMatch.ioI (ctl : Control) (d : Dst) (imm : Word) : RowMatch.Statement (.ioI ctl d imm) := by
  intro _ (h : ctl.scop = 0)
  simp only [OpcodeRow.selects, opcodeRow, encode, RowMatch.iForm _ _ _ _ h]
  decide

theorem RowMatch.addBranchAlways (ctl : Control) (t : BitVec 8) (a b : Src) :
    RowMatch.Statement (.addBranchAlways ctl t a b) := by
  intro _ (h : ctl.scop = 0)
  simp only [OpcodeRow.selects, opcodeRow, encode, RowMatch.branch _ _ _ _ _ _ h]
  decide

theorem RowMatch.addBranchZero (ctl : Control) (t : BitVec 8) (a b : Src) :
    RowMatch.Statement (.addBranchZero ctl t a b) := by
  intro _ (h : ctl.scop = 0)
  simp only [OpcodeRow.selects, opcodeRow, encode, RowMatch.branch _ _ _ _ _ _ h]
  decide

theorem RowMatch.addBranchNotZero (ctl : Control) (t : BitVec 8) (a b : Src) :
    RowMatch.Statement (.addBranchNotZero ctl t a b) := by
  intro _ (h : ctl.scop = 0)
  simp only [OpcodeRow.selects, opcodeRow, encode, RowMatch.branch _ _ _ _ _ _ h]
  decide

theorem RowMatch.addBranchSign (ctl : Control) (t : BitVec 8) (a b : Src) :
    RowMatch.Statement (.addBranchSign ctl t a b) := by
  intro _ (h : ctl.scop = 0)
  simp only [OpcodeRow.selects, opcodeRow, encode, RowMatch.branch _ _ _ _ _ _ h]
  decide

theorem RowMatch.addBranchNotSign (ctl : Control) (t : BitVec 8) (a b : Src) :
    RowMatch.Statement (.addBranchNotSign ctl t a b) := by
  intro _ (h : ctl.scop = 0)
  simp only [OpcodeRow.selects, opcodeRow, encode, RowMatch.branch _ _ _ _ _ _ h]
  decide

theorem RowMatch.addBranchZeroOrSign (ctl : Control) (t : BitVec 8) (a b : Src) :
    RowMatch.Statement (.addBranchZeroOrSign ctl t a b) := by
  intro _ (h : ctl.scop = 0)
  simp only [OpcodeRow.selects, opcodeRow, encode, RowMatch.branch _ _ _ _ _ _ h]
  decide

theorem RowMatch.addBranchZeroOrNotSign (ctl : Control) (t : BitVec 8) (a b : Src) :
    RowMatch.Statement (.addBranchZeroOrNotSign ctl t a b) := by
  intro _ (h : ctl.scop = 0)
  simp only [OpcodeRow.selects, opcodeRow, encode, RowMatch.branch _ _ _ _ _ _ h]
  decide

theorem RowMatch.divBranchAlways (ctl : Control) (t : BitVec 8) (a b : Src) :
    RowMatch.Statement (.divBranchAlways ctl t a b) := by
  intro _ (h : ctl.scop = 0)
  simp only [OpcodeRow.selects, opcodeRow, encode, RowMatch.branch _ _ _ _ _ _ h]
  decide

theorem RowMatch.divBranchZero (ctl : Control) (t : BitVec 8) (a b : Src) :
    RowMatch.Statement (.divBranchZero ctl t a b) := by
  intro _ (h : ctl.scop = 0)
  simp only [OpcodeRow.selects, opcodeRow, encode, RowMatch.branch _ _ _ _ _ _ h]
  decide

theorem RowMatch.divBranchNotZero (ctl : Control) (t : BitVec 8) (a b : Src) :
    RowMatch.Statement (.divBranchNotZero ctl t a b) := by
  intro _ (h : ctl.scop = 0)
  simp only [OpcodeRow.selects, opcodeRow, encode, RowMatch.branch _ _ _ _ _ _ h]
  decide

theorem RowMatch.divBranchSign (ctl : Control) (t : BitVec 8) (a b : Src) :
    RowMatch.Statement (.divBranchSign ctl t a b) := by
  intro _ (h : ctl.scop = 0)
  simp only [OpcodeRow.selects, opcodeRow, encode, RowMatch.branch _ _ _ _ _ _ h]
  decide

theorem RowMatch.divBranchNotSign (ctl : Control) (t : BitVec 8) (a b : Src) :
    RowMatch.Statement (.divBranchNotSign ctl t a b) := by
  intro _ (h : ctl.scop = 0)
  simp only [OpcodeRow.selects, opcodeRow, encode, RowMatch.branch _ _ _ _ _ _ h]
  decide

theorem RowMatch.divBranchZeroOrSign (ctl : Control) (t : BitVec 8) (a b : Src) :
    RowMatch.Statement (.divBranchZeroOrSign ctl t a b) := by
  intro _ (h : ctl.scop = 0)
  simp only [OpcodeRow.selects, opcodeRow, encode, RowMatch.branch _ _ _ _ _ _ h]
  decide

theorem RowMatch.divBranchZeroOrNotSign (ctl : Control) (t : BitVec 8) (a b : Src) :
    RowMatch.Statement (.divBranchZeroOrNotSign ctl t a b) := by
  intro _ (h : ctl.scop = 0)
  simp only [OpcodeRow.selects, opcodeRow, encode, RowMatch.branch _ _ _ _ _ _ h]
  decide

theorem RowMatch.mulBranchAlways (ctl : Control) (t : BitVec 8) (a b : Src) :
    RowMatch.Statement (.mulBranchAlways ctl t a b) := by
  intro _ (h : ctl.scop = 0)
  simp only [OpcodeRow.selects, opcodeRow, encode, RowMatch.branch _ _ _ _ _ _ h]
  decide

theorem RowMatch.mulBranchZero (ctl : Control) (t : BitVec 8) (a b : Src) :
    RowMatch.Statement (.mulBranchZero ctl t a b) := by
  intro _ (h : ctl.scop = 0)
  simp only [OpcodeRow.selects, opcodeRow, encode, RowMatch.branch _ _ _ _ _ _ h]
  decide

theorem RowMatch.mulBranchNotZero (ctl : Control) (t : BitVec 8) (a b : Src) :
    RowMatch.Statement (.mulBranchNotZero ctl t a b) := by
  intro _ (h : ctl.scop = 0)
  simp only [OpcodeRow.selects, opcodeRow, encode, RowMatch.branch _ _ _ _ _ _ h]
  decide

theorem RowMatch.mulBranchSign (ctl : Control) (t : BitVec 8) (a b : Src) :
    RowMatch.Statement (.mulBranchSign ctl t a b) := by
  intro _ (h : ctl.scop = 0)
  simp only [OpcodeRow.selects, opcodeRow, encode, RowMatch.branch _ _ _ _ _ _ h]
  decide

theorem RowMatch.mulBranchNotSign (ctl : Control) (t : BitVec 8) (a b : Src) :
    RowMatch.Statement (.mulBranchNotSign ctl t a b) := by
  intro _ (h : ctl.scop = 0)
  simp only [OpcodeRow.selects, opcodeRow, encode, RowMatch.branch _ _ _ _ _ _ h]
  decide

theorem RowMatch.mulBranchZeroOrSign (ctl : Control) (t : BitVec 8) (a b : Src) :
    RowMatch.Statement (.mulBranchZeroOrSign ctl t a b) := by
  intro _ (h : ctl.scop = 0)
  simp only [OpcodeRow.selects, opcodeRow, encode, RowMatch.branch _ _ _ _ _ _ h]
  decide

theorem RowMatch.mulBranchZeroOrNotSign (ctl : Control) (t : BitVec 8) (a b : Src) :
    RowMatch.Statement (.mulBranchZeroOrNotSign ctl t a b) := by
  intro _ (h : ctl.scop = 0)
  simp only [OpcodeRow.selects, opcodeRow, encode, RowMatch.branch _ _ _ _ _ _ h]
  decide

theorem RowMatch.sqrtBranchAlways (ctl : Control) (t : BitVec 8) (a b : Src) :
    RowMatch.Statement (.sqrtBranchAlways ctl t a b) := by
  intro _ (h : ctl.scop = 0)
  simp only [OpcodeRow.selects, opcodeRow, encode, RowMatch.branch _ _ _ _ _ _ h]
  decide

theorem RowMatch.sqrtBranchZero (ctl : Control) (t : BitVec 8) (a b : Src) :
    RowMatch.Statement (.sqrtBranchZero ctl t a b) := by
  intro _ (h : ctl.scop = 0)
  simp only [OpcodeRow.selects, opcodeRow, encode, RowMatch.branch _ _ _ _ _ _ h]
  decide

theorem RowMatch.sqrtBranchNotZero (ctl : Control) (t : BitVec 8) (a b : Src) :
    RowMatch.Statement (.sqrtBranchNotZero ctl t a b) := by
  intro _ (h : ctl.scop = 0)
  simp only [OpcodeRow.selects, opcodeRow, encode, RowMatch.branch _ _ _ _ _ _ h]
  decide

theorem RowMatch.sqrtBranchSign (ctl : Control) (t : BitVec 8) (a b : Src) :
    RowMatch.Statement (.sqrtBranchSign ctl t a b) := by
  intro _ (h : ctl.scop = 0)
  simp only [OpcodeRow.selects, opcodeRow, encode, RowMatch.branch _ _ _ _ _ _ h]
  decide

theorem RowMatch.sqrtBranchNotSign (ctl : Control) (t : BitVec 8) (a b : Src) :
    RowMatch.Statement (.sqrtBranchNotSign ctl t a b) := by
  intro _ (h : ctl.scop = 0)
  simp only [OpcodeRow.selects, opcodeRow, encode, RowMatch.branch _ _ _ _ _ _ h]
  decide

theorem RowMatch.sqrtBranchZeroOrSign (ctl : Control) (t : BitVec 8) (a b : Src) :
    RowMatch.Statement (.sqrtBranchZeroOrSign ctl t a b) := by
  intro _ (h : ctl.scop = 0)
  simp only [OpcodeRow.selects, opcodeRow, encode, RowMatch.branch _ _ _ _ _ _ h]
  decide

theorem RowMatch.sqrtBranchZeroOrNotSign (ctl : Control) (t : BitVec 8) (a b : Src) :
    RowMatch.Statement (.sqrtBranchZeroOrNotSign ctl t a b) := by
  intro _ (h : ctl.scop = 0)
  simp only [OpcodeRow.selects, opcodeRow, encode, RowMatch.branch _ _ _ _ _ _ h]
  decide

theorem RowMatch.logicBranchAlways (ctl : Control) (t : BitVec 8) (a b : Src) :
    RowMatch.Statement (.logicBranchAlways ctl t a b) := by
  intro _ (h : ctl.scop = 0)
  simp only [OpcodeRow.selects, opcodeRow, encode, RowMatch.branch _ _ _ _ _ _ h]
  decide

theorem RowMatch.logicBranchZero (ctl : Control) (t : BitVec 8) (a b : Src) :
    RowMatch.Statement (.logicBranchZero ctl t a b) := by
  intro _ (h : ctl.scop = 0)
  simp only [OpcodeRow.selects, opcodeRow, encode, RowMatch.branch _ _ _ _ _ _ h]
  decide

theorem RowMatch.logicBranchNotZero (ctl : Control) (t : BitVec 8) (a b : Src) :
    RowMatch.Statement (.logicBranchNotZero ctl t a b) := by
  intro _ (h : ctl.scop = 0)
  simp only [OpcodeRow.selects, opcodeRow, encode, RowMatch.branch _ _ _ _ _ _ h]
  decide

theorem RowMatch.logicBranchSign (ctl : Control) (t : BitVec 8) (a b : Src) :
    RowMatch.Statement (.logicBranchSign ctl t a b) := by
  intro _ (h : ctl.scop = 0)
  simp only [OpcodeRow.selects, opcodeRow, encode, RowMatch.branch _ _ _ _ _ _ h]
  decide

theorem RowMatch.logicBranchNotSign (ctl : Control) (t : BitVec 8) (a b : Src) :
    RowMatch.Statement (.logicBranchNotSign ctl t a b) := by
  intro _ (h : ctl.scop = 0)
  simp only [OpcodeRow.selects, opcodeRow, encode, RowMatch.branch _ _ _ _ _ _ h]
  decide

theorem RowMatch.logicBranchZeroOrSign (ctl : Control) (t : BitVec 8) (a b : Src) :
    RowMatch.Statement (.logicBranchZeroOrSign ctl t a b) := by
  intro _ (h : ctl.scop = 0)
  simp only [OpcodeRow.selects, opcodeRow, encode, RowMatch.branch _ _ _ _ _ _ h]
  decide

theorem RowMatch.logicBranchZeroOrNotSign (ctl : Control) (t : BitVec 8) (a b : Src) :
    RowMatch.Statement (.logicBranchZeroOrNotSign ctl t a b) := by
  intro _ (h : ctl.scop = 0)
  simp only [OpcodeRow.selects, opcodeRow, encode, RowMatch.branch _ _ _ _ _ _ h]
  decide

theorem RowMatch.rsvr2 (w : Insn) : RowMatch.Statement (.rsvr2 w) := by
  intro h _
  simp only [Instr.wellFormed, Instr.reservedOpcodeField, Bool.and_eq_true, beq_iff_eq] at h
  have h7 : w.extractLsb' 48 3 = 7 := h.1
  simp only [OpcodeRow.selects, opcodeRow, encode, beq_iff_eq]
  apply BitVec.eq_of_getLsbD_eq
  intro i hi
  have hk : ∀ k, k < 3 → w.getLsbD (48 + k) = true := by
    intro k hk
    have := congrArg (fun v => v.getLsbD k) h7
    simp only [BitVec.getLsbD_extractLsb', hk, decide_true, Bool.true_and] at this
    rw [this]
    interval_cases k <;> rfl
  have h0 := hk 0 (by decide)
  have h1 := hk 1 (by decide)
  have h2 := hk 2 (by decide)
  simp only [BitVec.getLsbD_and]
  simp only [Nat.reduceAdd] at h0 h1 h2
  have hm : ∀ j, j < 64 → j ≠ 48 → j ≠ 49 → j ≠ 50 → (0x0007000000000000 : Insn).getLsbD j = false := by decide
  by_cases e0 : i = 48
  · subst e0; rw [h0]; rfl
  · by_cases e1 : i = 49
    · subst e1; rw [h1]; rfl
    · by_cases e2 : i = 50
      · subst e2; rw [h2]; rfl
      · rw [hm i hi e0 e1 e2, Bool.and_false]

end Sys2Proof.Laws
end

