-- ==== Sys2Proof/Laws/Writes.lean ====
section
/-! SUPPORT. Write-back told channel by channel: when it succeeds, and what it leaves (40_operand_datapath.md R132, R136). -/

namespace Sys2Proof.Machine

theorem channel_eq_none (s : State) (i : Nat) (c : Chan) (h : s.regs.length ≤ i) : s.channel i c = none := by
  simp [State.channel, h]

/-- A merged register, channel by channel. -/
theorem mergeReg_get {W : Nat} (we : Vec3 Bool) (r : Vec W) (old : Reg) (c : Chan) :
    (mergeReg we r old).get c = if we.get c = true then ⟨(r.get c).toNat, true⟩ else old.get c := by
  cases c <;> rfl

/-- A register with one channel given, channel by channel (70_reset_and_hazards.md R271). -/
theorem setChannel_get (r : Reg) (c : Chan) (v : Nat) (c' : Chan) :
    (setChannel r c v).get c' = if c' = c then ⟨v, true⟩ else r.get c' := by
  cases c <;> cases c' <;> rfl

/-- A channel that some enable of the instruction writes makes the enables not all 0. -/
theorem anyEnabled_of_get {we : Vec3 Bool} {c : Chan} (h : we.get c = true) : anyEnabled we = true := by
  cases c <;> simp_all [anyEnabled, Vec3.get]

/-- Everything a write-back that succeeds does, channel by channel (R136). -/
theorem writeBack_writes {W : Nat} {d : Dst} {r : Vec W} {s t : State} (h : writeBack d r s = some t) :
    Writes s t d r ∧ t = { s with regs := t.regs } := by
  rcases writeBack_eq_some h with ⟨hw, rfl⟩ | ⟨hw, old, hold, rfl⟩
  · refine ⟨⟨rfl, fun i c => ?_⟩, rfl⟩
    rw [if_neg]
    rintro ⟨-, hc, -⟩
    rw [anyEnabled_of_get hc] at hw
    cases hw
  · obtain ⟨hlt, hget⟩ := List.getElem?_eq_some_iff.1 hold
    refine ⟨⟨by simp, fun i c => ?_⟩, rfl⟩
    by_cases hi : i = effIndex s d.index d.displaced
    · subst hi
      by_cases hc : d.we.get c = true
      · simp [State.channel, hlt, hc, mergeReg_get]
      · simp [State.channel, hlt, hc, mergeReg_get, hget]
    · simp [State.channel, hi, Ne.symm hi]

/-- Write-back and advance, when the destination may be written: the next state, and everything about it. -/
theorem completeWrite_of_writable {W : Nat} {eof : Bool} {d : Dst} {r : Vec W} {s : State} (h : s.Writable d) :
    ∃ t, completeWrite eof d r s = .next t ∧ Writes s t d r ∧ Advances s t eof (s.pc + 1) [] := by
  obtain ⟨u, hu⟩ := Option.isSome_iff_exists.1 ((writeBack_isSome d r s).2 h)
  obtain ⟨hW, hu'⟩ := writeBack_writes hu
  refine ⟨retire eof (u.pc + 1) u, by simp [completeWrite, hu], hW, ?_⟩
  rw [hu']
  constructor <;> simp

/-- Write-back when the destination may not be written: the range refusal (R132). -/
theorem completeWrite_of_not_writable {W : Nat} {eof : Bool} {d : Dst} {r : Vec W} {s : State} (h : ¬ s.Writable d) :
    completeWrite eof d r s = .refused .registerIndexOutOfRange := by
  have : writeBack d r s = none := by
    rw [← Option.not_isSome_iff_eq_none, writeBack_isSome]
    exact h
  simp [completeWrite, this]

/-- A readable source is prepared. -/
theorem sourceOperand_of_readable {s : State} {o : Src} (site : DrawSite) (h : s.Readable o) :
    ∃ v, sourceOperand s site o = some v :=
  Option.isSome_iff_exists.1 ((sourceOperand_isSome s site o).2 h)

/-- A source that is not readable is not prepared. -/
theorem sourceOperand_of_not_readable {s : State} {o : Src} (site : DrawSite) (h : ¬ s.Readable o) :
    sourceOperand s site o = none := by
  rw [← Option.not_isSome_iff_eq_none, sourceOperand_isSome]
  exact h

end Sys2Proof.Machine
end

