-- ==== Sys2Proof/Tests/Slice0.lean ====
section
/-! SUPPORT. Tests: words and effects taken from 95_test_vectors.md (and from the field table of 30_encoding.md R72), checked
against the model; and, for each statement of Certificates/Slice0 with hypotheses, a theorem `witness_…` that meets them. -/

-- One theorem after another: run side by side, this many would need more stack memory than the check allows.
set_option Elab.async false

namespace Sys2Proof.Tests

open Sys2Proof Sys2Proof.Machine

/-! ## Helpers -/

/-- A register whose three channels have been written. -/
def full (x y z : Nat) : Reg := ⟨⟨x, true⟩, ⟨y, true⟩, ⟨z, true⟩⟩

/-- No lane negated; all three lanes; the selector `xyz`. -/
def pos : Vec3 Bool := ⟨false, false, false⟩
def all3 : Vec3 Bool := ⟨true, true, true⟩
def xyz : Vec3 Chan := ⟨.x, .y, .z⟩

/-- A machine of 60 registers with frame offset `fo`, where the listed registers hold what is given and the others are unwritten. -/
def machine (fo : BitVec 8) (init : List (Nat × Reg)) : State :=
  { State.reset with
    cfg := { Config.standard with regCount := 60 }
    regs := init.foldl (fun regs p => regs.set p.1 p.2) (List.replicate 60 Reg.unwritten)
    fo := fo }

/-- One step on the word, placed at `pc`. -/
def run (w : Insn) (s : State) : StepResult := step (placeWord s w)

/-- A register after a step. -/
def regOf (i : Nat) : StepResult → Option Reg
  | .next t => t.regs[i]?
  | _ => none

/-- A channel after a step. -/
def chanOf (i : Nat) (c : Chan) : StepResult → Option Channel
  | .next t => t.channel i c
  | _ => none

/-- The program counter after a step. -/
def pcOf : StepResult → Option Nat
  | .next t => some t.pc
  | _ => none

/-- The mark `halted` after a step. -/
def haltedOf : StepResult → Option Bool
  | .next t => some t.halted
  | _ => none

/-- The refusal that a step answers. -/
def refusalOf : StepResult → Option Refusal
  | .refused r => some r
  | _ => none

/-! ## WellFormed (30_encoding.md R109): each check refuses an ill-formed term -/

theorem test_wellFormed_rsvr2 : (Instr.rsvr2 0x0007000000000000).wellFormed = true := by decide
theorem test_illFormed_rsvr2_other_opcode : (Instr.rsvr2 0x0006000000000000).wellFormed = false := by decide
theorem test_illFormed_rsvr2_bit51 : (Instr.rsvr2 0x000F000000000000).wellFormed = false := by decide
theorem test_illFormed_rsvr2_bit53 : (Instr.rsvr2 0x0027000000000000).wellFormed = false := by decide
/-- SCOP/LOP (R101), lowest and highest bit, and EOF (R103): admitted or not by the configuration. -/
theorem test_notAdmitted_scop :
    [Instr.rsvr2 0x0807000000000000, .rsvr2 0x4007000000000000, .addI ⟨false, 1⟩ ⟨3, false, all3⟩ 7, .addI ⟨false, 8⟩ ⟨3, false, all3⟩ 7].map
      (fun i => (i.admittedBy Config.ofSpec, i.admittedBy { Config.ofSpec with scopTable := .supplied })) =
    List.replicate 4 (false, true) := by decide
theorem test_notAdmitted_eof :
    [Instr.rsvr2 0x0407000000000000, .nop true, .addI ⟨true, 0⟩ ⟨3, false, all3⟩ 7].map
      (fun i => (i.admittedBy Config.ofSpec, i.admittedBy { Config.ofSpec with eofModel := .refuse })) =
    List.replicate 3 (true, false) := by decide
theorem test_wellFormed_add : (Instr.add ⟨false, 0⟩ ⟨3, false, all3⟩ ⟨1, false, pos, xyz⟩ ⟨2, false, pos, xyz⟩).wellFormed = true := by
  decide

/-! ## Decoding: every constructor, from words written out from the field table (R72; 95_test_vectors.md 1.1, 2, 3) -/

/-- 1.1 words 1 to 5, 1.2. -/
theorem test_decode_worked_examples :
    [0x0000000000000000, 0x8001880000000001, 0x8001840000000002, 0x8001840800000000, 0x8001B02800000004,
      0x02810090006FC038].map (decode Config.ofSpec) =
    [.ok (.nop false), .ok (.addI ⟨false, 0⟩ ⟨0, false, ⟨false, true, false⟩⟩ 1), .ok (.addI ⟨false, 0⟩ ⟨0, false, ⟨false, false, true⟩⟩ 2),
      .ok (.addI ⟨false, 0⟩ ⟨2, false, ⟨false, false, true⟩⟩ 0), .ok (.addI ⟨false, 0⟩ ⟨10, true, ⟨true, false, false⟩⟩ 4),
      .ok (.addBranchNotZero ⟨false, 0⟩ 36 ⟨55, false, pos, xyz⟩ ⟨56, false, all3, xyz⟩)] := by decide

/-- 3.1, the R-form column. -/
theorem test_decode_rForm :
    [0x00011C0C00020002, 0x00021C0C00020002, 0x00031C0C00020002, 0x00041C0C00020002, 0x00051C0C00020002,
      0x00061C0C00020002].map (decode Config.ofSpec) =
    [.ok (.add ⟨false, 0⟩ ⟨3, false, all3⟩ ⟨1, false, pos, xyz⟩ ⟨2, false, pos, xyz⟩),
      .ok (.div ⟨false, 0⟩ ⟨3, false, all3⟩ ⟨1, false, pos, xyz⟩ ⟨2, false, pos, xyz⟩),
      .ok (.mul ⟨false, 0⟩ ⟨3, false, all3⟩ ⟨1, false, pos, xyz⟩ ⟨2, false, pos, xyz⟩),
      .ok (.sqrt ⟨false, 0⟩ ⟨3, false, all3⟩ ⟨1, false, pos, xyz⟩ ⟨2, false, pos, xyz⟩),
      .ok (.logic ⟨false, 0⟩ ⟨3, false, all3⟩ ⟨1, false, pos, xyz⟩ ⟨2, false, pos, xyz⟩),
      .ok (.io ⟨false, 0⟩ ⟨3, false, all3⟩ ⟨1, false, pos, xyz⟩ ⟨2, false, pos, xyz⟩)] := by decide

/-- 3.1, the I-form column. -/
theorem test_decode_iForm :
    [0x80019C0C00000007, 0x8002900C00000007, 0x80039C0C00000007, 0x80049C0C00000011, 0x80059C0C000000FF,
      0x80069C0C00000001].map (decode Config.ofSpec) =
    [.ok (.addI ⟨false, 0⟩ ⟨3, false, all3⟩ 7), .ok (.divI ⟨false, 0⟩ ⟨3, false, ⟨true, false, false⟩⟩ 7), .ok (.mulI ⟨false, 0⟩ ⟨3, false, all3⟩ 7),
      .ok (.sqrtI ⟨false, 0⟩ ⟨3, false, all3⟩ 17), .ok (.logicI ⟨false, 0⟩ ⟨3, false, all3⟩ 255), .ok (.ioI ⟨false, 0⟩ ⟨3, false, all3⟩ 1)] := by decide

/-- 3.1, the last row: OPCODE 111. -/
theorem test_decode_rsvr2 :
    [0x00071C0C00020002, 0x80079C0C00000001].map (decode Config.ofSpec) =
      [.ok (.rsvr2 0x00071C0C00020002), .ok (.rsvr2 0x80079C0C00000001)] := by decide

/-- 3.6. -/
theorem test_decode_addBranch :
    [0x02010090006FC038, 0x02410090006FC038, 0x02810090006FC038, 0x02C10090006FC038,
      0x03010090006FC038, 0x03410090006FC038, 0x03810090006FC038].map (decode Config.ofSpec) =
    [.ok (.addBranchAlways ⟨false, 0⟩ 36 ⟨55, false, pos, xyz⟩ ⟨56, false, all3, xyz⟩),
      .ok (.addBranchZero ⟨false, 0⟩ 36 ⟨55, false, pos, xyz⟩ ⟨56, false, all3, xyz⟩),
      .ok (.addBranchNotZero ⟨false, 0⟩ 36 ⟨55, false, pos, xyz⟩ ⟨56, false, all3, xyz⟩),
      .ok (.addBranchSign ⟨false, 0⟩ 36 ⟨55, false, pos, xyz⟩ ⟨56, false, all3, xyz⟩),
      .ok (.addBranchNotSign ⟨false, 0⟩ 36 ⟨55, false, pos, xyz⟩ ⟨56, false, all3, xyz⟩),
      .ok (.addBranchZeroOrSign ⟨false, 0⟩ 36 ⟨55, false, pos, xyz⟩ ⟨56, false, all3, xyz⟩),
      .ok (.addBranchZeroOrNotSign ⟨false, 0⟩ 36 ⟨55, false, pos, xyz⟩ ⟨56, false, all3, xyz⟩)] := by decide

/-- 3.6, with the OPCODE field of Table 3 changed to DIV. -/
theorem test_decode_divBranch :
    [0x02020090006FC038, 0x02420090006FC038, 0x02820090006FC038, 0x02C20090006FC038,
      0x03020090006FC038, 0x03420090006FC038, 0x03820090006FC038].map (decode Config.ofSpec) =
    [.ok (.divBranchAlways ⟨false, 0⟩ 36 ⟨55, false, pos, xyz⟩ ⟨56, false, all3, xyz⟩),
      .ok (.divBranchZero ⟨false, 0⟩ 36 ⟨55, false, pos, xyz⟩ ⟨56, false, all3, xyz⟩),
      .ok (.divBranchNotZero ⟨false, 0⟩ 36 ⟨55, false, pos, xyz⟩ ⟨56, false, all3, xyz⟩),
      .ok (.divBranchSign ⟨false, 0⟩ 36 ⟨55, false, pos, xyz⟩ ⟨56, false, all3, xyz⟩),
      .ok (.divBranchNotSign ⟨false, 0⟩ 36 ⟨55, false, pos, xyz⟩ ⟨56, false, all3, xyz⟩),
      .ok (.divBranchZeroOrSign ⟨false, 0⟩ 36 ⟨55, false, pos, xyz⟩ ⟨56, false, all3, xyz⟩),
      .ok (.divBranchZeroOrNotSign ⟨false, 0⟩ 36 ⟨55, false, pos, xyz⟩ ⟨56, false, all3, xyz⟩)] := by decide

/-- 3.6, with the OPCODE field of Table 3 changed to MUL. -/
theorem test_decode_mulBranch :
    [0x02030090006FC038, 0x02430090006FC038, 0x02830090006FC038, 0x02C30090006FC038,
      0x03030090006FC038, 0x03430090006FC038, 0x03830090006FC038].map (decode Config.ofSpec) =
    [.ok (.mulBranchAlways ⟨false, 0⟩ 36 ⟨55, false, pos, xyz⟩ ⟨56, false, all3, xyz⟩),
      .ok (.mulBranchZero ⟨false, 0⟩ 36 ⟨55, false, pos, xyz⟩ ⟨56, false, all3, xyz⟩),
      .ok (.mulBranchNotZero ⟨false, 0⟩ 36 ⟨55, false, pos, xyz⟩ ⟨56, false, all3, xyz⟩),
      .ok (.mulBranchSign ⟨false, 0⟩ 36 ⟨55, false, pos, xyz⟩ ⟨56, false, all3, xyz⟩),
      .ok (.mulBranchNotSign ⟨false, 0⟩ 36 ⟨55, false, pos, xyz⟩ ⟨56, false, all3, xyz⟩),
      .ok (.mulBranchZeroOrSign ⟨false, 0⟩ 36 ⟨55, false, pos, xyz⟩ ⟨56, false, all3, xyz⟩),
      .ok (.mulBranchZeroOrNotSign ⟨false, 0⟩ 36 ⟨55, false, pos, xyz⟩ ⟨56, false, all3, xyz⟩)] := by decide

/-- 3.6, with the OPCODE field of Table 3 changed to SQRT. -/
theorem test_decode_sqrtBranch :
    [0x02040090006FC038, 0x02440090006FC038, 0x02840090006FC038, 0x02C40090006FC038,
      0x03040090006FC038, 0x03440090006FC038, 0x03840090006FC038].map (decode Config.ofSpec) =
    [.ok (.sqrtBranchAlways ⟨false, 0⟩ 36 ⟨55, false, pos, xyz⟩ ⟨56, false, all3, xyz⟩),
      .ok (.sqrtBranchZero ⟨false, 0⟩ 36 ⟨55, false, pos, xyz⟩ ⟨56, false, all3, xyz⟩),
      .ok (.sqrtBranchNotZero ⟨false, 0⟩ 36 ⟨55, false, pos, xyz⟩ ⟨56, false, all3, xyz⟩),
      .ok (.sqrtBranchSign ⟨false, 0⟩ 36 ⟨55, false, pos, xyz⟩ ⟨56, false, all3, xyz⟩),
      .ok (.sqrtBranchNotSign ⟨false, 0⟩ 36 ⟨55, false, pos, xyz⟩ ⟨56, false, all3, xyz⟩),
      .ok (.sqrtBranchZeroOrSign ⟨false, 0⟩ 36 ⟨55, false, pos, xyz⟩ ⟨56, false, all3, xyz⟩),
      .ok (.sqrtBranchZeroOrNotSign ⟨false, 0⟩ 36 ⟨55, false, pos, xyz⟩ ⟨56, false, all3, xyz⟩)] := by decide

/-- 3.6, with the OPCODE field of Table 3 changed to LOGIC. -/
theorem test_decode_logicBranch :
    [0x02050090006FC038, 0x02450090006FC038, 0x02850090006FC038, 0x02C50090006FC038,
      0x03050090006FC038, 0x03450090006FC038, 0x03850090006FC038].map (decode Config.ofSpec) =
    [.ok (.logicBranchAlways ⟨false, 0⟩ 36 ⟨55, false, pos, xyz⟩ ⟨56, false, all3, xyz⟩),
      .ok (.logicBranchZero ⟨false, 0⟩ 36 ⟨55, false, pos, xyz⟩ ⟨56, false, all3, xyz⟩),
      .ok (.logicBranchNotZero ⟨false, 0⟩ 36 ⟨55, false, pos, xyz⟩ ⟨56, false, all3, xyz⟩),
      .ok (.logicBranchSign ⟨false, 0⟩ 36 ⟨55, false, pos, xyz⟩ ⟨56, false, all3, xyz⟩),
      .ok (.logicBranchNotSign ⟨false, 0⟩ 36 ⟨55, false, pos, xyz⟩ ⟨56, false, all3, xyz⟩),
      .ok (.logicBranchZeroOrSign ⟨false, 0⟩ 36 ⟨55, false, pos, xyz⟩ ⟨56, false, all3, xyz⟩),
      .ok (.logicBranchZeroOrNotSign ⟨false, 0⟩ 36 ⟨55, false, pos, xyz⟩ ⟨56, false, all3, xyz⟩)] := by decide

/-- 3.2: the eight destination selectors. -/
theorem test_decode_write_enables :
    [0x8001800C00000009, 0x8001840C00000009, 0x8001880C00000009, 0x80018C0C00000009, 0x8001900C00000009, 0x8001940C00000009,
      0x8001980C00000009, 0x80019C0C00000009].map fieldWe =
    [⟨false, false, false⟩, ⟨false, false, true⟩, ⟨false, true, false⟩, ⟨false, true, true⟩, ⟨true, false, false⟩,
      ⟨true, false, true⟩, ⟨true, true, false⟩, ⟨true, true, true⟩] := by decide

/-- 3.3: rows zyx, yzx, xxz, and the three selectors absent from Table 5. -/
theorem test_decode_swizzles :
    [0x00011C0C24021202, 0x00011C0C4C022602, 0x00011C0C10020802, 0x00011C0C2C021602, 0x00011C0C32021902,
      0x00011C0C34021A02].map (fun w => (swizzleOf (fieldSwz1 w), swizzleOf (fieldSwz0 w))) =
    [(some ⟨.z, .y, .x⟩, some ⟨.z, .y, .x⟩), (some ⟨.y, .z, .x⟩, some ⟨.y, .z, .x⟩), (some ⟨.x, .x, .z⟩, some ⟨.x, .x, .z⟩),
      (some ⟨.z, .z, .x⟩, some ⟨.z, .z, .x⟩), (some ⟨.z, .x, .y⟩, some ⟨.z, .x, .y⟩), (some ⟨.z, .x, .x⟩, some ⟨.z, .x, .x⟩)] := by
  decide

/-- 3.4: the eight sign patterns, on both sources. -/
theorem test_decode_signs :
    [0x00011C0C00020002, 0x00011C0C80024002, 0x00011C0D00028002, 0x00011C0D8002C002, 0x00011C0E00030002, 0x00011C0E80034002,
      0x00011C0F00038002, 0x00011C0F8003C002].map (fun w => (fieldSign1 w, fieldSign0 w)) =
    [⟨false, false, false⟩, ⟨false, false, true⟩, ⟨false, true, false⟩, ⟨false, true, true⟩, ⟨true, false, false⟩,
      ⟨true, false, true⟩, ⟨true, true, false⟩, ⟨true, true, true⟩].map (fun s => (s, s)) := by decide

/-- 3.5: which of destination, source 1, source 0 is displaced, R-form MODE 000 to 111. -/
theorem test_decode_mode_rForm :
    [0x00011C0C00020002, 0x00013C0C00020002, 0x00015C0C00020002, 0x00017C0C00020002, 0x00019C0C00020002, 0x0001BC0C00020002,
      0x0001DC0C00020002, 0x0001FC0C00020002].map (decode Config.ofSpec) =
    [(false, false, false), (false, false, true), (false, true, false), (false, true, true), (true, false, false),
      (true, false, true), (true, true, false), (true, true, true)].map
      (fun m => .ok (.add ⟨false, 0⟩ ⟨3, m.1, all3⟩ ⟨1, m.2.1, pos, xyz⟩ ⟨2, m.2.2, pos, xyz⟩)) := by decide

/-- 3.5: branch MODE 100 and 111 under `BRANCH_MODE_BIT47_IGNORED`. -/
theorem test_decode_branch_bit47_ignored :
    [0x02818090006FC038, 0x0281E090006FC038].map (decode { Config.ofSpec with branchModeBit47Ignored := true }) =
    [.ok (.addBranchNotZero ⟨false, 0⟩ 36 ⟨55, false, pos, xyz⟩ ⟨56, false, all3, xyz⟩),
      .ok (.addBranchNotZero ⟨false, 0⟩ 36 ⟨55, true, pos, xyz⟩ ⟨56, true, all3, xyz⟩)] := by decide

/-- EOF = 1 is admitted by default (5) and reaches the instruction. -/
theorem test_decode_eof :
    [0x04011C0C00020002, 0x0400000000000000].map (decode Config.ofSpec) =
      [.ok (.add ⟨true, 0⟩ ⟨3, false, all3⟩ ⟨1, false, pos, xyz⟩ ⟨2, false, pos, xyz⟩), .ok (.nop true)] := by decide

/-- SCOP/LOP 1 and 8, bits 62:59, where SCOP_TABLE is supplied (5's words, R101). -/
theorem test_decode_scop :
    [0x08011C0C00020002, 0x40011C0C00020002].map (decode { Config.ofSpec with scopTable := .supplied }) =
    [.ok (.add ⟨false, 1⟩ ⟨3, false, all3⟩ ⟨1, false, pos, xyz⟩ ⟨2, false, pos, xyz⟩),
      .ok (.add ⟨false, 8⟩ ⟨3, false, all3⟩ ⟨1, false, pos, xyz⟩ ⟨2, false, pos, xyz⟩)] := by decide

/-- The encoder, against the words of 1.1, 2 and 4.7. -/
theorem test_encode :
    [Instr.addI ⟨false, 0⟩ ⟨10, true, ⟨true, false, false⟩⟩ 4, .addBranchNotZero ⟨false, 0⟩ 36 ⟨55, false, pos, xyz⟩ ⟨56, false, all3, xyz⟩,
      .add ⟨false, 0⟩ ⟨13, true, all3⟩ ⟨12, true, pos, xyz⟩ ⟨11, true, all3, xyz⟩,
      .add ⟨false, 0⟩ ⟨3, false, ⟨false, true, false⟩⟩ ⟨3, false, pos, ⟨.x, .x, .x⟩⟩ ⟨0, false, pos, ⟨.x, .x, .x⟩⟩,
      .mulBranchZero ⟨false, 0⟩ 200 ⟨1, false, pos, xyz⟩ ⟨2, false, pos, xyz⟩, .io ⟨false, 0⟩ ⟨0, true, all3⟩ ⟨10, true, pos, xyz⟩ ⟨12, true, pos, xyz⟩,
      .nop true].map encode =
    [0x8001B02800000004, 0x02810090006FC038, 0x0001FC340019C00B, 0x0001080C14060A00, 0x0243032000020002, 0x0006FC000014000C,
      0x0400000000000000] := by decide

/-! ## Decoding: every refusal reason (95_test_vectors.md 5) -/

theorem test_refuses_reservedBits53_51 :
    [0x00091C0C00020002, 0x00211C0C00020002, 0x000F000000000000, 0xFFFFFFFFFFFFFFFF].map (decode Config.ofSpec) =
      List.replicate 4 (.error .reservedBits53_51) := by decide

theorem test_refuses_scopLopNotShown :
    [0x08011C0C00020002, 0x40011C0C00020002].map (decode Config.ofSpec) =
      List.replicate 2 (.error .scopLopNotShown) := by decide

theorem test_refuses_bopWithoutBbit :
    [0x00811C0C00020002].map (decode Config.ofSpec) =
      List.replicate 1 (.error .bopWithoutBbit) := by decide

theorem test_refuses_branchTypeNotShown :
    [0x03C10090006FC038].map (decode Config.ofSpec) =
      List.replicate 1 (.error .branchTypeNotShown) := by decide

theorem test_refuses_nopNotCanonical :
    [0x0000000400000000, 0x8000000000000000, 0x00001C0000000000, 0x0000000000000001, 0x0200000000000000].map (decode Config.ofSpec) =
      List.replicate 5 (.error .nopNotCanonical) := by decide

theorem test_refuses_branchImmediateNotShown :
    [0x8281809000000000].map (decode Config.ofSpec) =
      List.replicate 1 (.error .branchImmediateNotShown) := by decide

theorem test_refuses_immModeNotShown :
    [0x80011C0C00000007, 0x8001DC0C00000007, 0x8001FC0C00000007].map (decode Config.ofSpec) =
      List.replicate 3 (.error .immModeNotShown) := by decide

theorem test_refuses_immSignNotShown :
    [0x80019C0E00000007, 0x80019C0D00000007].map (decode Config.ofSpec) =
      List.replicate 2 (.error .immSignNotShown) := by decide

theorem test_refuses_swizzleCodeNotShown :
    [0x00011C0C60020002, 0x00011C0C00020302].map (decode Config.ofSpec) =
      List.replicate 2 (.error .swizzleCodeNotShown) := by decide

theorem test_refuses_branchOpcodeNotShown :
    [0x0206009000000000].map (decode Config.ofSpec) =
      List.replicate 1 (.error .branchOpcodeNotShown) := by decide

theorem test_refuses_branchWithWriteNotShown :
    [0x02811090006FC038].map (decode Config.ofSpec) =
      List.replicate 1 (.error .branchWithWriteNotShown) := by decide

theorem test_refuses_branchDstDisplaced :
    [0x0281E090006FC038, 0x02818090006FC038].map (decode Config.ofSpec) =
      List.replicate 2 (.error .branchDstDisplaced) := by decide

theorem test_refuses_eofNotShown :
    decode { Config.ofSpec with eofModel := .refuse } 0x04011C0C00020002 = .error .eofNotShown := by decide

/-- The host's numbering: bits above `nbits` are 0, and a word that the decoder refuses gives nothing. -/
theorem test_decodeTableWord :
    decodeTableWord 64 0x00021C0C00020002 = some (.div ⟨false, 0⟩ ⟨3, false, all3⟩ ⟨1, false, pos, xyz⟩ ⟨2, false, pos, xyz⟩) ∧
      decodeTableWord 64 0x02818090006FC038 = none := by decide

/-- An image of bytes under either order (20_memory.md R54). -/
theorem test_decodeBytes :
    decodeBytes Config.ofSpec [0x80, 0x01, 0xB0, 0x28, 0, 0, 0, 4] = some (.ok (.addI ⟨false, 0⟩ ⟨10, true, ⟨true, false, false⟩⟩ 4)) ∧
      decodeBytes { Config.ofSpec with imageByteOrder := .lsbFirst } [4, 0, 0, 0, 0x28, 0xB0, 0x01, 0x80] =
        some (.ok (.addI ⟨false, 0⟩ ⟨10, true, ⟨true, false, false⟩⟩ 4)) ∧
      decodeBytes Config.ofSpec [0x80, 0x01] = none := by decide

/-- No word selects two rows of the opcode table: the masks and patterns of any two rows differ in a bit that both fix. -/
theorem test_opcode_rows_disjoint :
    opcodeTable.Pairwise (fun r r' => r.bitsMask &&& r'.bitsMask &&& (r.bitsMatch ^^^ r'.bitsMatch) ≠ 0) := by decide +kernel

theorem test_opcode_table_size : opcodeTable.length = 49 := by decide

/-! ## One step (95_test_vectors.md 4) -/

theorem test_nop : run 0x0000000000000000 { machine 0 [] with pc := 7 } =
    .next { placeWord { machine 0 [] with pc := 7 } 0 with pc := 8, tick := 1 } := rfl
theorem test_nop_eof : (run 0x0400000000000000 { machine 0 [] with pc := 7 } |> fun r => (pcOf r, haltedOf r)) =
    (some 8, some true) := by decide

theorem test_add_reads_before_it_writes : regOf 1 (run 0x00011C0424020001 (machine 0 [(1, full 1 2 3)])) = some (full 4 4 4) := by
  decide
theorem test_add_swizzle_then_sign : regOf 3 (run 0x00011C0C4C034002 (machine 0 [(1, full 1 2 3), (2, full 10 20 30)])) =
    some (full 0xFFFFFFF8 0x17 0xFFFFFFE3) := by decide

theorem test_addI_all_bits : regOf 3 (run 0x80019C0CFFFFFFFF (machine 0 [])) = some (full 0xFFFFFFFF 0xFFFFFFFF 0xFFFFFFFF) := by
  decide
theorem test_addI_last_register : regOf 255 (run 0x8001BC280000BABE { State.reset with fo := 245 }) =
    some (full 0xBABE 0xBABE 0xBABE) := by decide +kernel

/-- R8 and R169 with W = 16: a sum wraps at 2^16, and bit 15 is the sign. -/
theorem test_add_width_16 : regOf 3 (run 0x00011C0C00020002
    { machine 0 [(1, full 0xFFFF 0x8000 1), (2, full 1 0x8000 2)] with cfg := { Config.standard with regCount := 60, width := 16 } }) =
    some (full 0 0 3) := by decide
theorem test_sign_width_16 : pcOf (run 0x02C10090006FC038
    { machine 0 [(55, full 1 0 0), (56, full 2 0 0)] with cfg := { Config.standard with regCount := 60, width := 16 } }) = some 36 := by
  decide
/-- Without the assumption NO_HAZARDS a source is a draw (log 21). -/
theorem test_hazards_read_draws : chanOf 3 .x (run 0x00031C0C00020002
    { machine 0 [(1, full 1 2 3), (2, full 1 2 3)] with cfg := { Config.standard with regCount := 60, noHazards := false } }) =
    some ⟨(mulDefault (Config.drawn 32 0 .source1 .x) (Config.drawn 32 0 .source0 .x)).toNat, true⟩ := rfl

theorem test_div_truncates : chanOf 3 .x (run 0x00021C0C00020002
    (machine 0 [(1, full 7 0xFFFFFFF9 100), (2, full 2 2 0)])) = some ⟨3, true⟩ ∧
    chanOf 3 .y (run 0x00021C0C00020002 (machine 0 [(1, full 7 0xFFFFFFF9 100), (2, full 2 2 0)])) = some ⟨0xFFFFFFFD, true⟩ := by
  decide
theorem test_div_signed_overflow : regOf 3 (run 0x00021C0C00020002
    (machine 0 [(1, full 7 0xFFFFFFF9 0x80000000), (2, full 0xFFFFFFFE 0xFFFFFFFE 0xFFFFFFFF)])) =
    some (full 0xFFFFFFFD 3 0x80000000) := by decide
theorem test_divI_writes_x_only : chanOf 3 .y (run 0x8002900C00000007 (machine 0 [])) = some Channel.unwritten := by decide
theorem test_mul_keeps_disabled_channels : regOf 6 (run 0x0003181800060003 (machine 0 [(3, full 4 3 2)])) =
    some ⟨⟨16, true⟩, ⟨9, true⟩, Channel.unwritten⟩ := by decide
theorem test_mul_negated_source : regOf 3 (run 0x00031C0F80020002
    (machine 0 [(1, full 3 3 3), (2, full 2 0xFFFFFFFE 0)])) = some (full 0xFFFFFFFA 6 0) := by decide
theorem test_mulI_by_zero : regOf 3 (run 0x80039C0C00000007 (machine 0 [])) = some (full 0 0 0) := by decide
theorem test_sqrt_large : regOf 3 (run 0x00041C0C00020002
    (machine 0 [(1, full 0xFFFFFFFF 0x80000000 3), (2, full 1 1 1)])) = some (full 0xFFFF 0xB504 1) := by decide
theorem test_sqrt_reads_unsigned : regOf 3 (run 0x00041C0F80020002 (machine 0 [(1, full 1 4 0), (2, full 1 1 1)])) =
    some (full 0xFFFF 0xFFFF 0) := by decide
theorem test_sqrtI : regOf 3 (run 0x80049C0C00000011 (machine 0 [])) = some (full 4 4 4) := by decide

theorem test_logic : chanOf 3 .y (run 0x00051C0C00020002 (machine 0 [(1, full 1 2 3), (2, full 10 20 30)])) =
    some ⟨(Config.logicFunction 0 (2 : Word) 20).toNat, true⟩ := rfl
theorem test_logicI : chanOf 3 .z (run 0x80059C0C000000FF (machine 0 [])) = some ⟨(Config.logicFunction 0 (0xFF : Word) 0).toNat, true⟩ := rfl
/-- LOGIC with selector 1, where SCOP_TABLE is supplied (42_logic_io.md R190). -/
theorem test_logic_selector : chanOf 3 .y (run 0x08051C0C00020002
    { machine 0 [(1, full 1 2 3), (2, full 10 20 30)] with
      cfg := { Config.standard with regCount := 60, scopTable := .supplied } }) = some ⟨(Config.logicFunction 1 (2 : Word) 20).toNat, true⟩ := rfl
theorem test_io_event : (match run 0x00061C0C00020002 (machine 0 [(1, full 1 2 3), (2, full 4 5 6)]) with
    | .next t => t.ioLog
    | _ => []) = [⟨0, all3, some 3, ⟨1, 2, 3⟩, ⟨4, 5, 6⟩⟩] := by decide
theorem test_ioI_event : (match run 0x80069C0C00000001 (machine 0 []) with
    | .next t => t.ioLog
    | _ => []) = [⟨0, all3, some 3, ⟨1, 1, 1⟩, ⟨0, 0, 0⟩⟩] := by decide
/-- 4.6 and 6: the spec's own defaults refuse LOGIC and IO. -/
theorem test_logic_io_refused_by_default :
    [0x00051C0C00020002, 0x80059C0C000000FF, 0x0245009000020002, 0x00061C0C00020002, 0x80069C0C00000001].map
      (fun w => refusalOf (run w { machine 0 [] with cfg := { Config.ofSpec with regCount := 60 } })) =
    [some .logicOperationNotDocumented, some .logicOperationNotDocumented, some .logicOperationNotDocumented, some .ioNotDocumented,
      some .ioNotDocumented] := by decide
theorem test_rsvr2_refused : refusalOf (run 0x00071C0C00020002 (machine 0 [])) = some .reservedOpcode := by decide

/-- The seven branches of an operation (OPCODE `o`), on the registers 55 and 56 and the target 36, in the order of Table 18. -/
def branchWords (o : Insn) : List Insn :=
  [0, 1, 2, 3, 4, 5, 6].map fun bop => 0x02000090006FC038 ||| (o <<< 48) ||| (bop <<< 54)

/-- Where they go, from a start at pc = 0. -/
def branchPcs (o : Insn) (a b : Reg) : List (Option Nat) :=
  (branchWords o).map fun w => pcOf (run w (machine 0 [(55, a), (56, b)]))

/-! ADD, 4.7's table row for row. -/

theorem test_addBranch_equal : branchPcs 1 (full 4 5 6) (full 4 5 6) = [some 36, some 36, some 1, some 1, some 36, some 36, some 36] := by
  decide
theorem test_addBranch_lane_z_differs :
    branchPcs 1 (full 4 5 6) (full 4 5 7) = [some 36, some 1, some 36, some 1, some 36, some 1, some 36] := by decide
theorem test_addBranch_less : branchPcs 1 (full 3 5 6) (full 5 5 6) = [some 36, some 1, some 36, some 36, some 1, some 36, some 1] := by
  decide
theorem test_addBranch_greater : branchPcs 1 (full 5 5 6) (full 3 5 6) = [some 36, some 1, some 36, some 1, some 36, some 1, some 36] := by
  decide
theorem test_addBranch_signed_overflow :
    branchPcs 1 (full 0x80000000 0 0) (full 1 0 0) = [some 36, some 1, some 36, some 1, some 36, some 1, some 36] := by decide

/-! The other operations: source 0 is negated in every lane, so a result is a op -b. -/

/-- 7 / -2 = -3, 0 / -5 = 0, 1 / -3 = 0 (4.2). -/
theorem test_divBranch_negative :
    branchPcs 2 (full 7 0 1) (full 2 5 3) = [some 36, some 1, some 36, some 36, some 1, some 36, some 1] := by decide
/-- 1 / -2, 0 / -1, 0 / -1: all lanes 0. -/
theorem test_divBranch_zero :
    branchPcs 2 (full 1 0 0) (full 2 1 1) = [some 36, some 36, some 1, some 1, some 36, some 36, some 36] := by decide
/-- 3 times -2 is negative. -/
theorem test_mulBranch_negative :
    branchPcs 3 (full 3 0 0) (full 2 1 1) = [some 36, some 1, some 36, some 36, some 1, some 36, some 1] := by decide
/-- 0 in every lane. -/
theorem test_mulBranch_zero :
    branchPcs 3 (full 0 5 0) (full 9 0 9) = [some 36, some 36, some 1, some 1, some 36, some 36, some 36] := by decide
/-- A square root is never negative: with lane z = 1 it is not zero either. -/
theorem test_sqrtBranch_not_zero :
    branchPcs 4 (full 0 0 1) (full 0 0 1) = [some 36, some 1, some 36, some 1, some 36, some 1, some 36] := by decide
theorem test_sqrtBranch_zero :
    branchPcs 4 (full 0 0 0) (full 9 9 9) = [some 36, some 36, some 1, some 1, some 36, some 36, some 36] := by decide
/-- LOGIC_FN decides: ALWAYS is taken whatever it gives; SIGN looks at its value in lane x. -/
theorem test_logicBranch_always : pcOf (run 0x02050090006FC038 (machine 0 [(55, full 1 2 3), (56, full 4 5 6)])) = some 36 := by decide
theorem test_logicBranch_sign : pcOf (run 0x02C50090006FC038 (machine 0 [(55, full 1 2 3), (56, full 4 5 6)])) =
    some (if signBit (Config.logicFunction 0 (1 : Word) 0xFFFFFFFC) then 36 else 1) := rfl

/-! Targets, displaced sources, loops (4.7). -/

theorem test_branch_displaced_sources : pcOf (run 0x02816090006FC038 (machine 2 [(57, full 1 1 1), (58, full 1 1 2)])) = some 36 := by
  decide
theorem test_branch_highest_target : pcOf (run 0x02C103FC0003C002 (machine 0 [(1, full 1 9 9), (2, full 2 0 0)])) = some 255 := by
  decide
theorem test_branch_to_itself : pcOf (run 0x024100000003C001 (machine 0 [(1, full 1 2 3)])) = some 0 := by decide
theorem test_branch_eof_ends_the_run :
    (run 0x06810090006FC038 (machine 0 [(55, full 4 5 6), (56, full 4 5 7)]) |> fun r => (pcOf r, haltedOf r)) =
      (some 36, some true) := by decide

/-! ## Outcomes that are not results (95_test_vectors.md 6), launches -/

theorem test_destination_out_of_range : refusalOf (run 0x8001BC280000BABE { State.reset with fo := 246 }) =
    some .registerIndexOutOfRange := by decide +kernel
theorem test_source_out_of_range : refusalOf (run 0x00013C0C000200FA { State.reset with fo := 16 }) =
    some .registerIndexOutOfRange := by decide +kernel
theorem test_reset_has_nothing_to_fetch : step State.reset = .fault .notLoaded := rfl
theorem test_halted_has_no_step : step { machine 0 [] with halted := true } = .fault .runEnded := rfl
/-- The first of 7's programs: loaded, its words are at addresses 0 to 2. -/
theorem test_launch_loads : (launch Config.ofSpec ⟨[0x80019C0400000005, 0x8001900800000001, 0x0400000000000000], 16, []⟩).map
    (fun s => (s.imem, s.pc, s.fo)) =
    some ([(0, 0x80019C0400000005), (1, 0x8001900800000001), (2, 0x0400000000000000)], 0, 16) := by decide +kernel
theorem test_launch_initial_register : (launch Config.ofSpec ⟨[], 0, [(255, .y, 9)]⟩).bind (fun s => s.channel 255 .y) =
    some ⟨9, true⟩ := by decide +kernel
theorem test_launch_last_value_counts :
    (launch Config.ofSpec ⟨[], 0, [(7, .z, 1), (7, .x, 5), (7, .z, 2)]⟩).bind (fun s => s.regs[7]?) =
    some ⟨⟨5, true⟩, Channel.unwritten, ⟨2, true⟩⟩ := by decide +kernel
theorem test_launch_bad_contents : [(256, Chan.x, 0), (0, .x, 2 ^ 32)].map (fun e => (launch Config.ofSpec ⟨[], 0, [e]⟩).isNone) =
    [true, true] := by decide +kernel
theorem test_launch_too_long : (launch { Config.ofSpec with imemSize := 1 } ⟨[0, 0], 0, []⟩).isNone = true := by decide +kernel

/-! ## T-ASM (30_encoding.md R111 to R125; 95_test_vectors.md 1.4, 2) -/

theorem test_tasm_footnotes : ["ADD R[1].xyz R[2].xyy R[3].xyz", "ADD R[1].xyz R[2].xyz R[3].yyz", "ADD R[1].xyz R[2].-xyz R[3].xyz",
      "ADD R[1].xyz R[2].xyz R[3].-x-y-z", "ADD R[10 + offset ].xyz I(0xbabe) 0"].map Tasm.assemble =
    [.ok [0x00011C0402040003], .ok [0x00011C0400042003], .ok [0x00011C0600040003], .ok [0x00011C040005C003],
      .ok [0x8001BC280000BABE]] := by decide +kernel
theorem test_tasm_loop : Tasm.assemble
    "ADD R[1].xyz I(3) 0\nloop: ADD R[2].xyz R[2].xyz R[1].xyz\nADD <BRANCH.NOT_ZERO> @loop.____ R[1].xyz R[4].xyz\n" =
    .ok [0x80019C0400000003, 0x00011C0800040001, 0x0281000400020004] := by decide +kernel
theorem test_tasm_refusals :
    ["OUT R[0].xyz R[1].xyz R[2].xyz", "RSVR2 R[0].xyz R[1].xyz R[2].xyz", "ADD R[0].xyz I(-1) 0", "ADD R[0].xyz I(0x100000000) 0",
      "ADD R[256].xyz I(1) 0", "ADD R[0].yxz I(1) 0", "ADD <BRANCH.ZERO> @256.____ R[0].xyz R[0].xyz",
      "ADD <BRANCH.ZERO> @9.____ I(1) 0", "ADD <BRANCH.ZERO> @9.x__ R[0].xyz R[0].xyz", "IO <BRANCH.ZERO> @9.____ R[0].xyz R[0].xyz",
      "FOO R[0].xyz R[1].xyz R[2].xyz", "ADD <BRANCH.ZERO> @nowhere.____ R[0].xyz R[0].xyz",
      "a: NOP R0.____ R0.xyz R0.xyz\na: NOP R0.____ R0.xyz R0.xyz", "ADD R[0].xyz"].map Tasm.assemble =
    [.error .mnemonicOut, .error .mnemonicReserved, .error .literalNegative, .error .literalTooLarge, .error .registerNumber,
      .error .destinationCoords, .error .branchTarget, .error .branchLiteral, .error .branchWrite, .error .branchOperation,
      .error .unknownMnemonic, .error .unknownLabel, .error .duplicateLabel, .error .ungrammatical] := by decide +kernel
/-- R112, R116: `0x` needs a digit; register numbers and targets are decimal; the optional operand is the digit `0`; a text holds a
statement. The last text is log 29's choice. -/
theorem test_tasm_numbers :
    ["ADD R[0].xyz I(0x) 0", "ADD R[0x10].xyz I(1) 0", "ADD <BRANCH.ZERO> @0x24.____ R[0].xyz R[0].xyz", "ADD R[0].xyz I(1) 00", "",
      "//only a comment", "R1: ADD <BRANCH.ZERO> @R1.____ R[0].xyz R[0].xyz"].map Tasm.assemble =
    [.error .badCharacter, .error .ungrammatical, .error .ungrammatical, .error .ungrammatical, .error .ungrammatical,
      .error .ungrammatical, .error .destinationQualifier] := by decide +kernel

/-! ## Witnesses: for each statement with hypotheses, a state and operands that meet them together, clause by clause -/

/-- The last register, undisplaced; the last one reached by FO = 245; the first index beyond. -/
def s255 : Src := ⟨255, false, pos, xyz⟩
def s10d : Src := ⟨10, true, pos, xyz⟩
def d255 : Dst := ⟨255, false, all3⟩
def d10d : Dst := ⟨10, true, all3⟩
def dNone : Dst := ⟨10, true, pos⟩
/-- The reset state with a frame offset. -/
def at245 : State := { State.reset with fo := 245 }
def at246 : State := { State.reset with fo := 246 }

theorem readable_s255 : at245.Readable s255 := by show _ < _; decide +kernel
theorem readable_s10d : at245.Readable s10d := by show _ < _; decide +kernel
theorem writable_d255 : at245.Writable d255 := by intro _; decide +kernel
theorem writable_d10d : at245.Writable d10d := by intro _; decide +kernel
theorem writable_none : at246.Writable dNone := by intro h; cases h
theorem not_readable_s10d : ¬ at246.Readable s10d := by show ¬ _ < _; decide +kernel
theorem not_writable_d10d : ¬ at246.Writable d10d := fun h => absurd (h rfl) (by decide +kernel)
theorem readable_s255_at246 : at246.Readable s255 := by show _ < _; decide +kernel

/-- EOF = 1 where it ends the run, EOF = 0 where it is refused, SCOP/LOP = 15 where the table is supplied; RSVR2 with each. -/
theorem witness_DecodeEncodeRoundTrip :
    (∀ i ∈ [Instr.add ⟨true, 0⟩ d255 s255 s10d, .rsvr2 0x8407FFFFFFFFFFFF], i.wellFormed = true ∧ i.admittedBy Config.ofSpec = true) ∧
      (∀ i ∈ [Instr.add ⟨false, 0⟩ d255 s255 s10d, .rsvr2 0x8007FFFFFFFFFFFF],
        i.wellFormed = true ∧ i.admittedBy { Config.ofSpec with eofModel := .refuse } = true) ∧
      ∀ i ∈ [Instr.add ⟨true, 15⟩ d255 s255 s10d, .rsvr2 0x7C07FFFFFFFFFFFF],
        i.wellFormed = true ∧ i.admittedBy { Config.ofSpec with scopTable := .supplied } = true := by decide
theorem witness_EncodeDecodeRoundTrip :
    Config.standard.branchModeBit47Ignored = false ∧
      decode Config.standard 0x00011C0C00020002 = .ok (.add ⟨false, 0⟩ ⟨3, false, all3⟩ ⟨1, false, pos, xyz⟩ ⟨2, false, pos, xyz⟩) := by
  decide
theorem witness_AdmittedWordSelectsItsOpcodeRowOnly :
    Config.standard.branchModeBit47Ignored = false ∧ fieldScop 0x8006BC0C00000001 = 0 ∧ decode Config.standard 0x8006BC0C00000001 = .ok (.ioI ⟨false, 0⟩ ⟨3, true, all3⟩ 1) ∧
      (∃ r ∈ opcodeTable, r.selects 0x8006BC0C00000001 = true) := by decide +kernel
/-- An admitted word for each clause: BBIT = 0 and IMM = 0, BBIT = 1 (bit 47 not ignored), IMM = 1 with MODE 100 and 101, OPCODE =
000, OPCODE = 111; SCOP_TABLE absent and EOF_MODEL = refuse. -/
theorem witness_AdmittedWordsObeyTheFieldConstraints :
    ((decode Config.standard 0x00011C0C00020002).toOption.isSome ∧ fieldBbit 0x00011C0C00020002 = false) ∧
      ((decode Config.standard 0x02810090006FC038).toOption.isSome ∧ fieldBbit 0x02810090006FC038 = true) ∧
      ((decode Config.standard 0x80019C0C00000007).toOption.isSome ∧ fieldMode 0x80019C0C00000007 = 4) ∧
      ((decode Config.standard 0x8001BC0C00000007).toOption.isSome ∧ fieldMode 0x8001BC0C00000007 = 5) ∧
      ((decode Config.standard 0x0400000000000000).toOption.isSome ∧ fieldOpcode 0x0400000000000000 = 0) ∧
      ((decode Config.standard 0x0007000000000000).toOption.isSome ∧ fieldOpcode 0x0007000000000000 = 7) ∧
      (Config.standard.scopTable = .absent ∧ Config.standard.branchModeBit47Ignored = false ∧
        (decode { Config.standard with eofModel := .refuse } 0x80019C0C00000007).toOption.isSome) := by decide
/-- Letters out of their places, a letter too many, and no letter: none is a row of Table 4; register numbers 0 and 255. -/
theorem witness_DestinationSelectorsFollowTableFour :
    (∀ coords ∈ ["yxz", "zzz", "y__", "xyzx", ""],
      coords ∉ ["___", "__z", "_y_", "_yz", "x__", "x_z", "xy_", "xyz", "____"]) ∧ (0 ≤ 255 ∧ 255 ≤ 255) := by decide
/-- A readable source at the last register, displaced or not; a channel that something has written, and one that nothing has. -/
theorem witness_SourceOperandIsSwizzledThenNegated :
    at245.Readable s255 ∧ at245.Readable s10d ∧ ((machine 0 [(1, full 1 2 3)]).channel 1 .z = some ⟨3, true⟩) ∧
      ((machine 0 [(1, full 1 2 3)]).channel 2 .z = some Channel.unwritten) ∧ at245.cfg.noHazards = true ∧
      ({ at245 with cfg := { Config.standard with noHazards := false } }.Readable s255) :=
  ⟨readable_s255, readable_s10d, by decide, by decide, rfl, readable_s255⟩
theorem witness_DisplacedIndexAddsTheFrameOffset : effIndex { State.reset with fo := 255 } 255 true = 510 := by decide
/-- Clause 1 at index 256 on either source; clause 2 at a destination of index 256 with readable sources. -/
theorem witness_RegisterIndexOutOfRangeIsRefused :
    effIndex at246 s10d.addr s10d.displaced = 256 ∧ ¬ at246.Readable s10d ∧ at246.Readable s255 ∧ ¬ at246.Writable d10d ∧
      at246.cfg.logicFn = .supplied ∧ at246.cfg.ioModel = .opaqueEvents :=
  ⟨by decide, not_readable_s10d, readable_s255_at246, not_writable_d10d, rfl, rfl⟩
/-- An instruction that completes: with a written destination, with no write enable, with no destination. -/
theorem witness_WriteBackUnderTheWriteEnables :
    (∃ t, exec (.addI ⟨false, 0⟩ d255 7) at245 = .next t) ∧ (∃ t, exec (.addI ⟨false, 0⟩ dNone 7) at246 = .next t) ∧
      ∃ t, exec (.nop false) at245 = .next t := ⟨⟨_, rfl⟩, ⟨_, rfl⟩, ⟨_, rfl⟩⟩
theorem witness_AddRegisterFormWritesTheSum :
    at245.Readable s255 ∧ at245.Readable s10d ∧ at245.Writable d10d ∧ at246.Readable s255 ∧ at246.Writable dNone :=
  ⟨readable_s255, readable_s10d, writable_d10d, readable_s255_at246, writable_none⟩
/-- Under W = 32 and under another width. -/
theorem witness_AddImmediateFormWritesTheLiteral :
    at245.Writable d255 ∧ at245.Writable d10d ∧ at246.Writable dNone ∧ at245.cfg.width = 32 ∧
      ({ at245 with cfg := { Config.standard with width := 16 } }.Writable d255 ∧
        { at245 with cfg := { Config.standard with width := 16 } }.cfg.width ≠ 32) :=
  ⟨writable_d255, writable_d10d, writable_none, rfl, writable_d255, by decide⟩
/-- And a divisor lane that is not 0. -/
theorem witness_DivRegisterFormWritesTheQuotient :
    at245.cfg.divFn = .specDefault ∧ at245.Readable s255 ∧ at245.Readable s10d ∧ at245.Writable d10d ∧
      sourceOperand (machine 0 [(2, full 2 2 0)]) .source0 ⟨2, false, pos, xyz⟩ = some ⟨2, 2, 0⟩ :=
  ⟨rfl, readable_s255, readable_s10d, writable_d10d, by decide⟩
theorem witness_DivImmediateFormCompletes : at245.Writable d255 := writable_d255
theorem witness_MulFormsWriteTheLowProduct :
    at245.cfg.mulFn = .specDefault ∧ at245.Readable s255 ∧ at245.Readable s10d ∧ at245.Writable d10d :=
  ⟨rfl, readable_s255, readable_s10d, writable_d10d⟩
theorem witness_SqrtFormsWriteTheFloorRoot :
    at245.cfg.sqrtFn = .specDefault ∧ at245.Readable s255 ∧ at245.Readable s10d ∧ at245.Writable d10d :=
  ⟨rfl, readable_s255, readable_s10d, writable_d10d⟩
/-- The reset state with the three functions supplied. -/
def supplied245 : State :=
  { at245 with cfg := { Config.standard with mulFn := .supplied, divFn := .supplied, sqrtFn := .supplied } }
theorem witness_SuppliedFunctionsDecideMulDivSqrt :
    supplied245.Readable s255 ∧ supplied245.Readable s10d ∧ supplied245.Writable d10d ∧ supplied245.cfg.mulFn = .supplied ∧
      supplied245.cfg.divFn = .supplied ∧ supplied245.cfg.sqrtFn = .supplied ∧
      sourceOperand (machine 0 [(2, full 2 2 0)]) .source0 ⟨2, false, pos, xyz⟩ = some ⟨2, 2, 0⟩ :=
  ⟨readable_s255, readable_s10d, writable_d10d, rfl, rfl, rfl, by decide⟩
theorem witness_LogicFormsWriteTheSuppliedFunction :
    at245.cfg.logicFn = .supplied ∧ at245.Readable s255 ∧ at245.Readable s10d ∧ at245.Writable d10d :=
  ⟨rfl, readable_s255, readable_s10d, writable_d10d⟩
theorem witness_IoFormsRecordAnEvent :
    at245.cfg.ioModel = .opaqueEvents ∧ at245.Writable d10d ∧ at245.Readable s255 ∧ at245.Readable s10d ∧
      at246.cfg.ioModel = .opaqueEvents ∧ at246.Writable dNone :=
  ⟨rfl, writable_d10d, readable_s255, readable_s10d, rfl, writable_none⟩
/-- The spec's own defaults, on the reset registers. -/
def plain245 : State := { at245 with cfg := Config.ofSpec }
theorem witness_UnsuppliedLogicAndIoAreRefused :
    plain245.Readable s255 ∧ plain245.Readable s10d ∧ plain245.cfg.logicFn = .absent ∧ plain245.cfg.ioModel = .refuse :=
  ⟨readable_s255, readable_s10d, rfl, rfl⟩
/-- Reset with one word loaded at pc. -/
def loaded (w : Insn) : State := placeWord State.reset w
theorem loaded_fetch (w : Insn) :
    (loaded w).refused = none ∧ (loaded w).halted = false ∧ ifetch (loaded w) (loaded w).pc = some w := ⟨rfl, rfl, rfl⟩
/-- OPCODE = 111 alone; with EOF = 1; and with bit 51 set, where an earlier check names the reason. -/
theorem witness_ReservedOpcodeIsRefused :
    ((loaded 0x0007000000000000).refused = none ∧ (loaded 0x0007000000000000).halted = false ∧
      ifetch (loaded 0x0007000000000000) (loaded 0x0007000000000000).pc = some 0x0007000000000000) ∧
    ([0x0007000000000000, 0x0407000000000000, 0x000F000000000000].map fieldOpcode = [7, 7, 7] ∧
      fieldReserved 0x0407000000000000 = 0 ∧ fieldScop 0x0407000000000000 = 0 ∧ Config.standard.eofModel = .endsRun) ∧
    (fieldOpcode 0x7807000000000000 = 7 ∧ fieldReserved 0x7807000000000000 = 0 ∧ fieldEof 0x7807000000000000 = false ∧
      { Config.standard with scopTable := .supplied }.scopTable = .supplied) :=
  ⟨loaded_fetch _, by decide, by decide⟩
theorem witness_BranchAlwaysCompletes : at245.Readable s255 ∧ at245.Readable s10d ∧ at245.cfg.logicFn = .supplied :=
  ⟨readable_s255, readable_s10d, rfl⟩
theorem witness_BranchZeroCompletes :
    at245.cfg.zeroRule = .allLanes ∧ at245.Readable s255 ∧ at245.Readable s10d ∧ at245.cfg.logicFn = .supplied :=
  ⟨rfl, readable_s255, readable_s10d, rfl⟩
theorem witness_BranchNotZeroCompletes :
    at245.cfg.zeroRule = .allLanes ∧ at245.Readable s255 ∧ at245.Readable s10d ∧ at245.cfg.logicFn = .supplied :=
  ⟨rfl, readable_s255, readable_s10d, rfl⟩
theorem witness_BranchSignCompletes :
    at245.cfg.signRule = .laneX ∧ at245.Readable s255 ∧ at245.Readable s10d ∧ at245.cfg.logicFn = .supplied :=
  ⟨rfl, readable_s255, readable_s10d, rfl⟩
theorem witness_BranchNotSignCompletes :
    at245.cfg.signRule = .laneX ∧ at245.Readable s255 ∧ at245.Readable s10d ∧ at245.cfg.logicFn = .supplied :=
  ⟨rfl, readable_s255, readable_s10d, rfl⟩
theorem witness_BranchZeroOrSignCompletes :
    at245.cfg.zeroRule = .allLanes ∧ at245.cfg.signRule = .laneX ∧ at245.Readable s255 ∧ at245.Readable s10d ∧
      at245.cfg.logicFn = .supplied := ⟨rfl, rfl, readable_s255, readable_s10d, rfl⟩
theorem witness_BranchZeroOrNotSignCompletes :
    at245.cfg.zeroRule = .allLanes ∧ at245.cfg.signRule = .laneX ∧ at245.Readable s255 ∧ at245.Readable s10d ∧
      at245.cfg.logicFn = .supplied := ⟨rfl, rfl, readable_s255, readable_s10d, rfl⟩
/-- R[17 = 13 + 4] = R[12 + 4] - R[11 + 4]. -/
theorem witness_SubtractIdiom :
    let s := machine 4 [(16, full 9 8 7), (15, full 1 2 3)]
    let u : Vec s.cfg.width := ⟨9, 8, 7⟩
    let v : Vec s.cfg.width := ⟨1, 2, 3⟩
    s.cfg.noHazards = true ∧ (∀ c ∈ [Chan.x, .y, .z], s.channel (effIndex s 12 true) c = some ⟨(u.get c).toNat, true⟩) ∧
      (∀ c ∈ [Chan.x, .y, .z], s.channel (effIndex s 11 true) c = some ⟨(v.get c).toNat, true⟩) ∧ effIndex s 13 true < s.regs.length := by
  decide
/-- Registers that are equal, and registers that differ in lane z alone. -/
theorem witness_CompareAndBranchIdiom :
    let s := machine 0 [(54, full 4 5 6), (55, full 4 5 6), (56, full 4 5 7)]
    s.cfg.zeroRule = .allLanes ∧ s.cfg.noHazards = true ∧
      (∀ c ∈ [Chan.x, .y, .z], s.channel (effIndex s 55 false) c = some ⟨((⟨4, 5, 6⟩ : Vec s.cfg.width).get c).toNat, true⟩) ∧
      (∀ c ∈ [Chan.x, .y, .z], s.channel (effIndex s 54 false) c = some ⟨((⟨4, 5, 6⟩ : Vec s.cfg.width).get c).toNat, true⟩) ∧
      (∀ c ∈ [Chan.x, .y, .z], s.channel (effIndex s 56 false) c = some ⟨((⟨4, 5, 7⟩ : Vec s.cfg.width).get c).toNat, true⟩) := by decide
/-- The overflow itself, and its two neighbours. -/
theorem witness_DefaultDivRoundsTowardZero :
    (0xFFFFFFFF : Word) ≠ 0 ∧ ¬ ((0x80000001 : Word) = 0x80000000 ∧ (0xFFFFFFFF : Word) = 0xFFFFFFFF) ∧
      ¬ ((0x80000000 : Word) = 0x80000000 ∧ (0x00000001 : Word) = 0xFFFFFFFF) := by decide
theorem witness_ZeroOrNotSignIsNotSignByDefault :
    State.reset.cfg.zeroRule = .allLanes ∧ State.reset.cfg.signRule = .laneX := by decide
/-- At the first and at the last address of the memory. -/
theorem witness_StepRunsTheDecodedInstruction :
    ∀ s ∈ [loaded 0x80019C0C00000007, placeWord { State.reset with pc := 255 } 0x80019C0C00000007],
      s.refused = none ∧ s.halted = false ∧ s.pc < s.cfg.imemSize ∧ s.imem.read s.pc = some 0x80019C0C00000007 ∧
        decode s.cfg 0x80019C0C00000007 = .ok (.addI ⟨false, 0⟩ ⟨3, false, all3⟩ 7) := by decide
theorem witness_PlacedWordRunsNext :
    0 < State.reset.cfg.imemSize ∧
      decode State.reset.cfg (BitVec.ofNat 64 (0x80019C0C00000007 % 2 ^ 64)) = .ok (.addI ⟨false, 0⟩ ⟨3, false, all3⟩ 7) := by decide
theorem reset_values : ∀ r ∈ State.reset.regs, ∀ c : Chan, (r.get c).value < 2 ^ State.reset.cfg.width := by
  intro r hr c
  obtain ⟨-, rfl⟩ := List.mem_replicate.1 hr
  cases c <;> decide
theorem loaded_inv : (loaded 0x80019C0C00000007).Inv :=
  ⟨rfl, List.length_replicate, reset_values, by decide, (by intro e he; cases he), (by intro h; cases h)⟩
theorem witness_StepKeepsTheInvariant :
    (loaded 0x80019C0C00000007).Inv ∧ ∃ t, step (loaded 0x80019C0C00000007) = .next t := ⟨loaded_inv, _, rfl⟩
/-- A step that completes, from a state that has a written channel and an event already. -/
theorem witness_NoInstructionChangesTheLaunch :
    let s := placeWord { machine 0 [(1, full 1 2 3)] with ioLog := [⟨0, pos, none, ⟨1, 1, 1⟩, ⟨0, 0, 0⟩⟩] } 0x80069C0C00000001
    (∃ t, step s = .next t) ∧ s.channel 1 .x = some ⟨1, true⟩ := ⟨⟨_, rfl⟩, by decide⟩
theorem witness_OnlyIoRecordsEvents :
    (∃ t, exec (.addI ⟨false, 0⟩ d255 7) at245 = .next t) ∧ (∀ ctl d a b, Instr.addI ⟨false, 0⟩ d255 7 ≠ .io ctl d a b) ∧
      ∀ ctl d imm, Instr.addI ⟨false, 0⟩ d255 7 ≠ .ioI ctl d imm :=
  ⟨⟨_, rfl⟩, (by intro _ _ _ _ h; cases h), by intro _ _ _ h; cases h⟩
/-- One step with EOF = 1 and one with EOF = 0. -/
theorem witness_HaltedExactlyAfterEof :
    (∃ t, step (loaded 0x0400000000000000) = .next t) ∧ ∃ t, step (loaded 0x0000000000000000) = .next t := ⟨⟨_, rfl⟩, ⟨_, rfl⟩⟩
/-- Halted; at the first address beyond the memory; at an address that is not loaded. -/
theorem witness_NoStepAfterTheRunOrOutsideTheProgram :
    (State.reset.refused = none ∧ { State.reset with halted := true }.halted = true) ∧
      (State.reset.halted = false ∧ { State.reset with pc := 256 }.cfg.imemSize ≤ { State.reset with pc := 256 }.pc) ∧
      { State.reset with pc := 255 }.imem.read 255 = none := by decide
theorem witness_RefusedStateStaysAndChangesNothing :
    step (loaded 0x0007000000000000) = .refused .reservedOpcode ∧
      (markRefused .reservedOpcode State.reset).refused = some .reservedOpcode ∧
      ({ State.reset with halted := true }.halted = true ∧ { State.reset with halted := true }.refused = none) :=
  ⟨rfl, rfl, rfl, rfl⟩
/-- Two different states, of one register, that differ under the mark alone. -/
def oneRegister (v : Nat) : State := { State.reset with regs := [⟨⟨v, false⟩, ⟨1, true⟩, Channel.unwritten⟩] }
theorem witness_UnwrittenValuesAreInvisible : State.Agree (oneRegister 5) (oneRegister 6) ∧ oneRegister 5 ≠ oneRegister 6 :=
  ⟨⟨.cons ⟨⟨rfl, by intro h; cases h⟩, ⟨rfl, fun _ => rfl⟩, ⟨rfl, fun _ => rfl⟩⟩ .nil, rfl⟩, by decide⟩
/-- A launch without initial contents and with them, ENTRY_PC at most IMEM_SIZE; a channel given twice, its last value, and one
given none; a program of IMEM_SIZE words and of one more; the last register and the first index beyond; the largest value and the
first beyond. -/
theorem witness_LaunchStartsTheLoadedProgram :
    (launch Config.ofSpec ⟨[0x0400000000000000], 16, []⟩).isSome = true ∧
      (launch Config.ofSpec ⟨List.replicate 256 0, 16, [(255, .z, 1), (255, .z, 2 ^ 32 - 1)]⟩).isSome = true ∧
      Config.ofSpec.entryPc ≤ Config.ofSpec.imemSize ∧
      [(255, Chan.z, 1), (255, .z, 2 ^ 32 - 1)] = [(255, Chan.z, 1)] ++ (255, .z, 2 ^ 32 - 1) :: [] ∧
      (∀ e ∈ [(255, Chan.z, 1), (255, .z, 2 ^ 32 - 1)], ¬ (e.1 = 255 ∧ e.2.1 = .y)) ∧
      ((List.replicate 256 (0 : Insn)).length ≤ Config.ofSpec.imemSize ∧
        ¬ (List.replicate 257 (0 : Insn)).length ≤ Config.ofSpec.imemSize) := by decide +kernel
/-- A statement that has a word, and a NOP that has one. -/
theorem witness_TranscribedWordsDecode :
    Tasm.wordOf [] ⟨none, false, "ADD", none, .register none 255 true none "xyz", .literal false 7⟩ = .ok 0x8001BFFC00000007 ∧
      Tasm.wordOf [] ⟨none, false, "NOP", none, .register none 0 false none "____",
        .sources ⟨0, false, false, pos, xyz⟩ ⟨0, false, false, pos, xyz⟩⟩ = .ok 0 := by decide
/-- The lowest and the highest selector other than 0; sources and destinations at the last register; a divisor lane of 0 and not. -/
theorem witness_ScopSelectedFormsWriteTheTableFunction :
    (1 : BitVec 4) ≠ 0 ∧ (15 : BitVec 4) ≠ 0 ∧ at245.Readable s255 ∧ at245.Readable s10d ∧ at245.Writable d10d ∧
      sourceOperand (machine 0 [(2, full 2 2 0)]) .source0 ⟨2, false, pos, xyz⟩ = some ⟨2, 2, 0⟩ :=
  ⟨by decide, by decide, readable_s255, readable_s10d, writable_d10d, by decide⟩
/-- The reset state under a ZERO_RULE and a SIGN_RULE. -/
def ruled245 (z : ZeroRule) (g : SignRule) : State := { at245 with cfg := { Config.standard with zeroRule := z, signRule := g } }
/-- Every pair of rules, and for each rule a Z or an S that it gives (of the result ⟨0, 0x80000000, 1⟩). -/
theorem witness_EveryZeroAndSignRuleDecidesTheBranches :
    (∀ z g, (ruled245 z g).Readable s255 ∧ (ruled245 z g).Readable s10d ∧ (ruled245 z g).cfg.logicFn = .supplied ∧
      (ruled245 z g).cfg.zeroRule = z ∧ (ruled245 z g).cfg.signRule = g) ∧
    ([ZeroRule.allLanes, .laneX].map (fun z => zeroCondition { Config.standard with zeroRule := z } (⟨0, 0x80000000, 1⟩ : Vec 32)) =
      [false, true]) ∧
    ([SignRule.laneX, .anyLane, .everyLane].map
      (fun g => signCondition { Config.standard with signRule := g } (⟨0, 0x80000000, 1⟩ : Vec 32)) = [false, true, false]) ∧
    zeroCondition { Config.standard with zeroRule := .supplied } (⟨0, 0, 0⟩ : Vec 32) = Config.zeroFunction (⟨0, 0, 0⟩ : Vec 32) ∧
    signCondition { Config.standard with signRule := .supplied } (⟨0, 0, 0⟩ : Vec 32) = Config.signFunction (⟨0, 0, 0⟩ : Vec 32) :=
  ⟨fun _ _ => ⟨readable_s255, readable_s10d, rfl, rfl, rfl⟩, by decide, by decide, rfl, rfl⟩
/-- ADD writes 7 to R[10 + offset] = R[15]; a source of the next instruction reads R[15], negated. -/
theorem witness_NoHazardBetweenInstructions :
    (machine 5 []).cfg.noHazards = true ∧ ∃ t, exec (.addI ⟨false, 0⟩ ⟨10, true, all3⟩ 7) (machine 5 []) = .next t ∧
      destinationOf (.addI ⟨false, 0⟩ ⟨10, true, all3⟩ 7) = some ⟨10, true, all3⟩ ∧
      effIndex t 15 false = effIndex (machine 5 []) 10 true ∧
      sourceOperand t .source0 ⟨15, false, all3, xyz⟩ = some ⟨0xFFFFFFF9, 0xFFFFFFF9, 0xFFFFFFF9⟩ :=
  ⟨rfl, _, rfl, rfl, rfl, by decide⟩

end Sys2Proof.Tests
end

section
/-! SUPPORT. The encoder by operation and branch type instead of constructor by constructor, and the fields of the three kinds of
encoded word (30_encoding.md R72, R76, R77, R81, R90, R91). -/

namespace Sys2Proof

/-! ## OPCODE and BOP values -/

/-- The OPCODE of an operation (Table 3, R76). -/
def opcodeOf : AluOp → BitVec 3
  | .add => 1
  | .div => 2
  | .mul => 3
  | .sqrt => 4
  | .logic => 5

/-- The BOP of a branch type (Table 18, R81). -/
def bopOf : BranchType → BitVec 3
  | .always => 0
  | .zero => 1
  | .notZero => 2
  | .sign => 3
  | .notSign => 4
  | .zeroOrSign => 5
  | .zeroOrNotSign => 6

@[simp] theorem opcodeClass_opcodeOf (op : AluOp) : opcodeClass (opcodeOf op) = .alu op := by cases op <;> rfl

@[simp] theorem branchTypeOf_bopOf (ty : BranchType) : branchTypeOf (bopOf ty) = some ty := by cases ty <;> rfl

/-! ## The word of an operation in each form -/

@[simp] theorem encode_ofRForm (op : AluOp) (ctl : Control) (d : Dst) (a b : Src) :
    encode (.ofRForm op ctl d a b) = encodeRForm (opcodeOf op) ctl d a b := by
  cases op <;> rfl

@[simp] theorem encode_ofIForm (op : AluOp) (ctl : Control) (d : Dst) (imm : Word) :
    encode (.ofIForm op ctl d imm) = encodeIForm (opcodeOf op) ctl d imm := by
  cases op <;> rfl

@[simp] theorem encode_ofBranch (op : AluOp) (ty : BranchType) (ctl : Control) (t : BitVec 8) (a b : Src) :
    encode (.ofBranch op ty ctl t a b) = encodeBranch (opcodeOf op) (bopOf ty) ctl t a b := by
  cases op <;> cases ty <;> rfl

@[simp] theorem encode_io (ctl : Control) (d : Dst) (a b : Src) : encode (.io ctl d a b) = encodeRForm 6 ctl d a b := rfl

@[simp] theorem encode_ioI (ctl : Control) (d : Dst) (imm : Word) : encode (.ioI ctl d imm) = encodeIForm 6 ctl d imm := rfl

/-! ## BBIT, BOP, MODE and the write enables of each kind of word -/

section Fields

variable (opcode bop : BitVec 3) (ctl : Control) (d : Dst) (t : BitVec 8) (a b : Src) (imm : Word)

/-- BBIT and BOP of a branch word (R81). -/
theorem branch_fields_encodeBranch :
    fieldBbit (encodeBranch opcode bop ctl t a b) = true ∧ fieldBop (encodeBranch opcode bop ctl t a b) = bop := by
  simp [encodeBranch]

/-! "Every non-branch table has BBIT = 0 and BOP = 0" (R81). -/

theorem branch_fields_encode_nop (eof : Bool) : fieldBbit (encode (.nop eof)) = false ∧ fieldBop (encode (.nop eof)) = 0 := by
  simp [encode]

theorem branch_fields_encodeRForm :
    fieldBbit (encodeRForm opcode ctl d a b) = false ∧ fieldBop (encodeRForm opcode ctl d a b) = 0 := by
  simp [encodeRForm]

theorem branch_fields_encodeIForm :
    fieldBbit (encodeIForm opcode ctl d imm) = false ∧ fieldBop (encodeIForm opcode ctl d imm) = 0 := by
  simp [encodeIForm]

/-- MODE of an R-form word, bit by bit: destination, source 1, source 0 (R90). -/
theorem mode_bits_encodeRForm :
    (encodeRForm opcode ctl d a b).getLsbD 47 = d.displaced ∧ (encodeRForm opcode ctl d a b).getLsbD 46 = a.displaced ∧
      (encodeRForm opcode ctl d a b).getLsbD 45 = b.displaced := by
  rw [encodeRForm, bit47_packWord, bit46_packWord, bit45_packWord]
  simp

/-- MODE of an I-form word: 101 if the destination is displaced, else 100 (R91). -/
theorem fieldMode_encodeIForm : fieldMode (encodeIForm opcode ctl d imm) = if d.displaced then 5 else 4 := by
  simp [encodeIForm]

@[simp] theorem fieldWe_encodeRForm : fieldWe (encodeRForm opcode ctl d a b) = d.we := by
  simp [encodeRForm]

@[simp] theorem fieldWe_encodeIForm : fieldWe (encodeIForm opcode ctl d imm) = d.we := by
  simp [encodeIForm]

end Fields

/-- The three write enables stand in bits 44, 43, 42 (R77). -/
theorem we_bits_of_fieldWe {w : Insn} {we : Vec3 Bool} (h : fieldWe w = we) :
    w.getLsbD 44 = we.x ∧ w.getLsbD 43 = we.y ∧ w.getLsbD 42 = we.z := by
  subst h
  exact ⟨rfl, rfl, rfl⟩

end Sys2Proof
end

section
/-! SUPPORT. Which strings are destination selectors of T-ASM, and what refuses the others (30_encoding.md R77, R123; log 29). -/

namespace Sys2Proof.Tasm

/-- The strings of Table 4, with the four underscores that stand for its all-zero row too. -/
def destinationSelectors : List String := ["___", "__z", "_y_", "_yz", "x__", "x_z", "xy_", "xyz", "____"]

/-- A string outside Table 4 sets no write enables. -/
theorem enablesOf_of_not_mem {coords : String} (h : coords ∉ destinationSelectors) : enablesOf coords = none := by
  simp only [destinationSelectors, List.mem_cons, List.not_mem_nil, or_false, not_or] at h
  obtain ⟨h1, h2, h3, h4, h5, h6, h7, h8, h9⟩ := h
  simp [enablesOf, h1, h2, h3, h4, h5, h6, h7, h8, h9]

theorem fit8_of_le {n : Nat} (r : Refusal) (h : n ≤ 255) : fit8 r n = .ok (BitVec.ofNat 8 n) := if_pos h

/-- A register destination with a good number and no selector of Table 4 is refused for its coordinates (R123). -/
theorem registerOf_of_no_enables {n : Nat} {coords : String} (offset : Bool) (hn : n ≤ 255) (h : enablesOf coords = none) :
    registerOf (.register none n offset none coords) = .error .destinationCoords := by
  simp [registerOf, fit8_of_le _ hn, h]

/-- A branch target with no selector of Table 4 is refused for its coordinates, whatever the target (log 34). -/
theorem targetOf_of_no_enables {coords : String} (labels : List (String × Nat)) (target : Target) (h : enablesOf coords = none) :
    targetOf labels (.target false target coords) = .error .destinationCoords := by
  simp [targetOf, h]

end Sys2Proof.Tasm
end

section
/-! SUPPORT. When an R-form or an I-form completes, and with what result (40_operand_datapath.md R130; 30_encoding.md R101). -/

namespace Sys2Proof.Machine

@[simp] theorem exec_ofRForm (op : AluOp) (ctl : Control) (d : Dst) (a b : Src) (s : State) :
    exec (.ofRForm op ctl d a b) s = rForm op ctl d a b s := by
  cases op <;> rfl

@[simp] theorem exec_ofIForm (op : AluOp) (ctl : Control) (d : Dst) (imm : Word) (s : State) :
    exec (.ofIForm op ctl d imm) s = iForm op ctl d imm s := by
  cases op <;> rfl

/-- Only LOGIC can lack its function (42_logic_io.md R190). -/
theorem aluRefusal_of_ne_logic {op : AluOp} (h : op ≠ .logic) (s : State) : aluRefusal op s = none := by
  cases op with
  | logic => exact absurd rfl h
  | _ => rfl

/-- An R-form with its operands prepared and its destination writable completes and writes its result (R130). -/
theorem rForm_completes {op : AluOp} {d : Dst} {a b : Src} {s : State} {va vb : Vec s.cfg.width} (ctl : Control)
    (ha : sourceOperand s .source1 a = some va) (hb : sourceOperand s .source0 b = some vb) (hop : aluRefusal op s = none)
    (hd : s.Writable d) :
    ∃ t, rForm op ctl d a b s = .next t ∧ Writes s t d (aluResult op ctl.scop s va vb) ∧ Advances s t ctl.eof (s.pc + 1) [] := by
  have hform : rForm op ctl d a b s = completeWrite ctl.eof d (aluResult op ctl.scop s va vb) s := by
    simp [rForm, ha, hb, hop]
  rw [hform]
  exact completeWrite_of_writable hd

/-- An I-form with its destination writable completes and writes its result (R130, R134). -/
theorem iForm_completes {op : AluOp} {d : Dst} {s : State} (ctl : Control) (imm : Word) (hop : aluRefusal op s = none)
    (hd : s.Writable d) :
    ∃ t, iForm op ctl d imm s = .next t ∧
      Writes s t d (aluResult op ctl.scop s (literalOperand s.cfg.width imm) (zeroOperand s.cfg.width)) ∧
      Advances s t ctl.eof (s.pc + 1) [] := by
  have hform : iForm op ctl d imm s =
      completeWrite ctl.eof d (aluResult op ctl.scop s (literalOperand s.cfg.width imm) (zeroOperand s.cfg.width)) s := by
    simp [iForm, hop]
  rw [hform]
  exact completeWrite_of_writable hd

/-- Every operation but LOGIC takes its lane from SCOP_TABLE's function, but for a division by 0, which draws (log 18). -/
theorem scopLane_of_ne_logic {W : Nat} {op : AluOp} (h : op ≠ .logic) (scop : BitVec 4) (free a b : BitVec W) :
    scopLane op scop free a b = if op = .div ∧ b = 0 then free else Config.scopFunction op scop a b := by
  cases op with
  | logic => exact absurd rfl h
  | div => simp [scopLane]
  | _ => rfl

/-- The same of a result's lane under a selector other than 0 (R101). -/
theorem aluResult_get_of_scop {op : AluOp} {scop : BitVec 4} (hop : op ≠ .logic) (hs : scop ≠ 0) (s : State)
    (a b : Vec s.cfg.width) (c : Chan) :
    (aluResult op scop s a b).get c =
      if op = .div ∧ b.get c = 0 then draw s .quotient c else Config.scopFunction op scop (a.get c) (b.get c) := by
  rw [aluResult_get, aluLane_of_ne hs, scopLane_of_ne_logic hop]

end Sys2Proof.Machine
end

section
/-! PROOFS. The statements about the encoding: swizzle codes, branch fields, MODE, destination selectors, selected operations. -/

namespace Sys2Proof.Proofs

open Sys2Proof Sys2Proof.Machine

/-- Settles O7: a closed table of 24 rows, which the decoder's `swizzleOf` is run on. -/
theorem swizzleCodesFollowTableFive : Obligations.SwizzleCodesFollowTableFive := by
  unfold Obligations.SwizzleCodesFollowTableFive
  decide

/-- Settles O8, from BBIT and BOP of each kind of word. -/
theorem branchFieldsOfEncodedWords : Obligations.BranchFieldsOfEncodedWords := by
  unfold Obligations.BranchFieldsOfEncodedWords
  constructor
  · intro op ctl t a b row hrow
    have hbop : row.2 = bopOf row.1 := by
      revert row
      simp [bopOf]
    rw [encode_ofBranch, hbop]
    exact branch_fields_encodeBranch ..
  · intro op ctl d a b imm
    simp only [List.forall_mem_cons, encode_ofRForm, encode_ofIForm, encode_io, encode_ioI]
    exact ⟨branch_fields_encode_nop .., branch_fields_encodeRForm .., branch_fields_encodeRForm .., branch_fields_encodeIForm ..,
      branch_fields_encodeIForm .., List.forall_mem_nil _⟩

/-- Settles O9, from MODE of each kind of word. -/
theorem modeDisplacesOperandsPerFormat : Obligations.ModeDisplacesOperandsPerFormat := by
  unfold Obligations.ModeDisplacesOperandsPerFormat
  constructor
  · intro op ctl d a b
    simp only [List.forall_mem_cons, encode_ofRForm, encode_io]
    exact ⟨mode_bits_encodeRForm .., mode_bits_encodeRForm .., List.forall_mem_nil _⟩
  · intro op ctl d imm
    simp only [List.forall_mem_cons, encode_ofIForm, encode_ioI]
    exact ⟨fieldMode_encodeIForm .., fieldMode_encodeIForm .., List.forall_mem_nil _⟩

/-- Settles O10: the rows of Table 4 one by one, the refusal of every other string, and the field WE of each kind of word. -/
theorem destinationSelectorsFollowTableFour : Obligations.DestinationSelectorsFollowTableFour := by
  unfold Obligations.DestinationSelectorsFollowTableFour
  refine ⟨by decide, fun coords h => ?_, fun op ctl d a b imm => ?_⟩
  · have hnone : Tasm.enablesOf coords = none := Tasm.enablesOf_of_not_mem h
    exact ⟨hnone, fun n offset hn => Tasm.registerOf_of_no_enables offset hn hnone,
      fun labels target => Tasm.targetOf_of_no_enables labels target hnone⟩
  · have hwe : ∀ i ∈ [Instr.ofRForm op ctl d a b, .io ctl d a b, .ofIForm op ctl d imm, .ioI ctl d imm],
        fieldWe (encode i) = d.we := by simp
    exact fun i hi => we_bits_of_fieldWe (hwe i hi)

/-- Settles O55: each form completes with its result, whose lanes under a selector other than 0 are SCOP_TABLE's. -/
theorem scopSelectedFormsWriteTheTableFunction : Obligations.ScopSelectedFormsWriteTheTableFunction := by
  unfold Obligations.ScopSelectedFormsWriteTheTableFunction
  constructor
  · intro ctl d a b s hs ha hb hd
    obtain ⟨va, hva⟩ := sourceOperand_of_readable .source1 ha
    obtain ⟨vb, hvb⟩ := sourceOperand_of_readable .source0 hb
    refine ⟨va, vb, hva, hvb, fun p hp => ?_⟩
    have hform : p.2 = .ofRForm p.1 ctl d a b ∧ p.1 ≠ .logic := by
      revert p
      simp [Instr.ofRForm]
    obtain ⟨hinstr, hop⟩ := hform
    obtain ⟨t, ht, hwrites, hadv⟩ := rForm_completes ctl hva hvb (aluRefusal_of_ne_logic hop s) hd
    exact ⟨_, t, by rw [hinstr, exec_ofRForm, ht], hwrites, hadv, aluResult_get_of_scop hop hs s va vb⟩
  · intro ctl d imm s hs hd p hp
    have hform : p.2 = .ofIForm p.1 ctl d imm ∧ p.1 ≠ .logic ∧ p.1 ≠ .div := by
      revert p
      simp [Instr.ofIForm]
    obtain ⟨hinstr, hop, hdiv⟩ := hform
    obtain ⟨t, ht, hwrites, hadv⟩ := iForm_completes ctl imm (aluRefusal_of_ne_logic hop s) hd
    refine ⟨_, t, by rw [hinstr, exec_ofIForm, ht], hwrites, hadv, fun c => ?_⟩
    simp [aluResult_get_of_scop hop hs, hdiv]

end Sys2Proof.Proofs
end

section
/-! SUPPORT. What the I-forms of ADD and DIV compute: their operand b is 0 (40_operand_datapath.md R134), so the sum is operand a and
the quotient is a draw (41_arithmetic.md R162, R164). -/

namespace Sys2Proof.Machine

/-- Vectors that agree in every lane are equal. -/
theorem Vec3_eq_of_get {α : Type} {u v : Vec3 α} (h : ∀ c, u.get c = v.get c) : u = v := by
  obtain ⟨ux, uy, uz⟩ := u
  obtain ⟨vx, vy, vz⟩ := v
  obtain rfl : ux = vx := h .x
  obtain rfl : uy = vy := h .y
  obtain rfl : uz = vz := h .z
  rfl

/-- Adding 0 changes nothing: the sum does not leave W bits (R161, R169). -/
@[simp] theorem addLane_zero {W : Nat} (a : BitVec W) : addLane a 0#W = a := by
  simp [addLane]

/-- ADD with operand b = 0 gives operand a (R162). -/
theorem aluResult_add_zeroOperand (s : State) (a : Vec s.cfg.width) : aluResult .add 0 s a (zeroOperand s.cfg.width) = a := by
  refine Vec3_eq_of_get fun c => ?_
  calc (aluResult .add 0 s a (zeroOperand s.cfg.width)).get c
      _ = addLane (a.get c) ((zeroOperand s.cfg.width).get c) := aluResult_get ..
      _ = a.get c := by rw [zeroOperand_get, addLane_zero]

/-- A division by 0 draws, whatever DIV_FN is (R163, R172). -/
theorem divLane_zero {W : Nat} (cfg : Config) (free a : BitVec W) : divLane cfg free a 0#W = free := if_pos rfl

/-- A division by 0 draws under SCOP_TABLE too (log 18). -/
theorem scopLane_div_zero {W : Nat} (scop : BitVec 4) (free a : BitVec W) : scopLane .div scop free a 0#W = free := by
  rw [scopLane_of_ne_logic (by decide), if_pos ⟨rfl, rfl⟩]

/-- A division by 0 draws under every selector. -/
theorem aluLane_div_zero (scop : BitVec 4) (s : State) (lane : Chan) (a : BitVec s.cfg.width) :
    aluLane .div scop s lane a 0#s.cfg.width = draw s .quotient lane := by
  by_cases hs : scop = 0
  · subst hs
    exact divLane_zero s.cfg (draw s .quotient lane) a
  · rw [aluLane_of_ne hs, scopLane_div_zero]

end Sys2Proof.Machine

namespace Sys2Proof

/-- In an I-form word SIGN1X = SIGN1Y = 0, and bit 31, SIGN1Z of an R-form, belongs to the literal (30_encoding.md R73, R80). -/
theorem fieldSign1_encodeIForm (opcode : BitVec 3) (ctl : Control) (d : Dst) (imm : Word) :
    fieldSign1 (encodeIForm opcode ctl d imm) = ⟨false, false, imm.getLsbD 31⟩ := by
  simp [encodeIForm]

end Sys2Proof
end

section
/-! PROOFS. The statements about arithmetic: the I-forms of ADD and DIV. -/

namespace Sys2Proof.Proofs

open Sys2Proof Sys2Proof.Machine

/-- Settles O17: the I-form completes with its literal plus 0; and the fields of its word. -/
theorem addImmediateFormWritesTheLiteral : Obligations.AddImmediateFormWritesTheLiteral := by
  unfold Obligations.AddImmediateFormWritesTheLiteral
  constructor
  · intro eof d imm s hd
    obtain ⟨t, ht, hwrites, hadv⟩ := iForm_completes ⟨eof, 0⟩ imm (aluRefusal_of_ne_logic (op := .add) (by decide) s) hd
    rw [aluResult_add_zeroOperand] at hwrites
    exact ⟨literalValue s.cfg.width imm, t, ht, hwrites, hadv, fun hW => literalValue_toNat hW imm,
      fun hW => literalValue_of_ne hW imm⟩
  · intro eof d imm
    have hword : encode (.addI ⟨eof, 0⟩ d imm) = encodeIForm 1 ⟨eof, 0⟩ d imm := encode_ofIForm .add ⟨eof, 0⟩ d imm
    obtain ⟨-, -, himmv, -, -, -, hopcode, hbbit, hbop, himm⟩ := fields_encodeIForm 1 ⟨eof, 0⟩ d imm
    rw [hword]
    refine ⟨himm, hbbit, hbop, hopcode, fieldMode_encodeIForm .., ?_, ?_, himmv⟩ <;> rw [fieldSign1_encodeIForm]

/-- Settles O19: the I-form completes, and each lane of its result is a division by 0. -/
theorem divImmediateFormCompletes : Obligations.DivImmediateFormCompletes := by
  unfold Obligations.DivImmediateFormCompletes
  intro ctl d imm s hd
  obtain ⟨t, ht, hwrites, hadv⟩ := iForm_completes ctl imm (aluRefusal_of_ne_logic (op := .div) (by decide) s) hd
  refine ⟨_, t, ht, hwrites, hadv, fun c => ?_⟩
  rw [aluResult_get, zeroOperand_get]
  exact aluLane_div_zero ..

end Sys2Proof.Proofs
end

section
/-! SUPPORT. What an instruction with a destination leaves behind, and what a source reads of a written register
(40_operand_datapath.md R130, R133, R136; 70_reset_and_hazards.md R280). -/

namespace Sys2Proof.Machine

/-! ## From an instruction to its write-back -/

/-- Everything an R-form IO that completes can have done (42_logic_io.md R192). -/
theorem execIo_eq_next {ctl : Control} {d : Dst} {a b : Src} {s t : State} (h : execIo ctl d a b s = .next t) :
    ∃ va vb, sourceOperand s .source1 a = some va ∧ sourceOperand s .source0 b = some vb ∧
      ioTransfer ctl.eof d va vb s = .next t := by
  unfold execIo at h
  split at h
  · rename_i va vb ha hb
    exact ⟨va, vb, ha, hb, h⟩
  · cases h

/-- An instruction with a destination is an operation's R-form or I-form, or IO in one of the two (R131). -/
theorem destinationOf_eq_some {i : Instr} {d : Dst} (h : destinationOf i = some d) :
    (∃ op ctl a b, i = .ofRForm op ctl d a b) ∨ (∃ op ctl imm, i = .ofIForm op ctl d imm) ∨
      (∃ ctl a b, i = .io ctl d a b) ∨ ∃ ctl imm, i = .ioI ctl d imm := by
  cases i with
  | add ctl _ a b => cases h; exact .inl ⟨.add, ctl, a, b, rfl⟩
  | div ctl _ a b => cases h; exact .inl ⟨.div, ctl, a, b, rfl⟩
  | mul ctl _ a b => cases h; exact .inl ⟨.mul, ctl, a, b, rfl⟩
  | sqrt ctl _ a b => cases h; exact .inl ⟨.sqrt, ctl, a, b, rfl⟩
  | logic ctl _ a b => cases h; exact .inl ⟨.logic, ctl, a, b, rfl⟩
  | addI ctl _ imm => cases h; exact .inr (.inl ⟨.add, ctl, imm, rfl⟩)
  | divI ctl _ imm => cases h; exact .inr (.inl ⟨.div, ctl, imm, rfl⟩)
  | mulI ctl _ imm => cases h; exact .inr (.inl ⟨.mul, ctl, imm, rfl⟩)
  | sqrtI ctl _ imm => cases h; exact .inr (.inl ⟨.sqrt, ctl, imm, rfl⟩)
  | logicI ctl _ imm => cases h; exact .inr (.inl ⟨.logic, ctl, imm, rfl⟩)
  | io ctl _ a b => cases h; exact .inr (.inr (.inl ⟨ctl, a, b, rfl⟩))
  | ioI ctl _ imm => cases h; exact .inr (.inr (.inr ⟨ctl, imm, rfl⟩))
  | _ => cases h

/-- An instruction with a destination completes by the write-back of a result of W bits, on the state as it was but for the history
of IO events (R130, R192). -/
theorem exec_eq_completeWrite {i : Instr} {d : Dst} {s t : State} (h : exec i s = .next t) (hd : destinationOf i = some d) :
    ∃ (eof : Bool) (log : List IoEvent) (r : Vec s.cfg.width), completeWrite eof d r { s with ioLog := log } = .next t := by
  rcases destinationOf_eq_some hd with ⟨op, ctl, a, b, rfl⟩ | ⟨op, ctl, imm, rfl⟩ | ⟨ctl, a, b, rfl⟩ | ⟨ctl, imm, rfl⟩
  · rw [exec_ofRForm] at h
    obtain ⟨va, vb, -, -, -, hwrite⟩ := rForm_eq_next h
    exact ⟨_, s.ioLog, _, hwrite⟩
  · rw [exec_ofIForm] at h
    obtain ⟨-, hwrite⟩ := iForm_eq_next h
    exact ⟨_, s.ioLog, _, hwrite⟩
  · obtain ⟨va, vb, -, -, htransfer⟩ := execIo_eq_next h
    obtain ⟨-, hwrite⟩ := ioTransfer_eq_next htransfer
    exact ⟨_, _, _, hwrite⟩
  · obtain ⟨-, hwrite⟩ := ioTransfer_eq_next h
    exact ⟨_, _, _, hwrite⟩

/-- A write-back and advance that succeeds writes the result, and leaves the configuration (R136, R138). -/
theorem completeWrite_writes {W : Nat} {eof : Bool} {d : Dst} {r : Vec W} {s t : State} (h : completeWrite eof d r s = .next t) :
    Writes s t d r ∧ t.cfg = s.cfg := by
  obtain ⟨u, hu, rfl⟩ := completeWrite_eq_next h
  obtain ⟨hwrites, hframe⟩ := writeBack_writes hu
  exact ⟨hwrites, by rw [retire_cfg, hframe]⟩

/-- An instruction with a destination that completes writes a result of W bits, and leaves the configuration (R130, R136). -/
theorem exec_writes {i : Instr} {d : Dst} {s t : State} (h : exec i s = .next t) (hd : destinationOf i = some d) :
    t.cfg = s.cfg ∧ ∃ r : Vec t.cfg.width, Writes s t d r := by
  obtain ⟨eof, log, r, hwrite⟩ := exec_eq_completeWrite h hd
  have ⟨hwrites, hcfg⟩ := completeWrite_writes (s := { s with ioLog := log }) hwrite
  rw [hcfg]
  exact ⟨rfl, r, hwrites⟩

/-- The written channel itself, where there is such a register (R136). -/
theorem channel_of_writes {W : Nat} {s t : State} {d : Dst} {r : Vec W} {c : Chan} (h : Writes s t d r) (hc : d.we.get c = true)
    (hlt : effIndex s d.index d.displaced < t.regs.length) :
    t.channel (effIndex s d.index d.displaced) c = some ⟨(r.get c).toNat, true⟩ := by
  obtain ⟨hlength, hchannel⟩ := h
  rw [hchannel, if_pos ⟨rfl, hc, hlength ▸ hlt⟩]

/-! ## What a source reads -/

/-- The negation of a lane is two's-complement negation (00_scope.md R8, decision D6). -/
theorem negW_eq_neg {W : Nat} (v : BitVec W) : negW v = -v := by
  apply BitVec.eq_of_toNat_eq
  simp [negW, BitVec.toNat_neg]

/-- A lane of a source whose swizzle selects a written channel: its value, negated if the sign bit is set (R133, R280). -/
theorem sourceOperand_get_of_written {s : State} {site : DrawSite} {o : Src} {v : Vec s.cfg.width} {c : Chan}
    {x : BitVec s.cfg.width} (hhazards : s.cfg.noHazards = true) (hv : sourceOperand s site o = some v)
    (hx : s.channel (effIndex s o.addr o.displaced) (o.sel.get c) = some ⟨x.toNat, true⟩) :
    v.get c = if o.neg.get c then -x else x := by
  obtain ⟨reg, hreg, rfl⟩ := sourceOperand_eq_some hv
  have hchannel : reg.get (o.sel.get c) = ⟨x.toNat, true⟩ := by
    rw [State.channel, show s.regs[_]? = some reg from hreg] at hx
    exact Option.some.inj hx
  have hread : (reg.get (o.sel.get c)).read s.cfg (draw s site c) = x := by
    rw [hchannel, read_of_written rfl hhazards, BitVec.ofNat_toNat, BitVec.setWidth_eq]
  rw [Vec3_get_ofLanes, sourceLane, hread, negW_eq_neg]

end Sys2Proof.Machine
end

section
/-! PROOFS. The statement about hazards between instructions. -/

namespace Sys2Proof.Proofs

open Sys2Proof Sys2Proof.Machine

/-- Settles O57: the completed instruction has written the channels of its destination, and a written channel reads as its value. -/
theorem noHazardBetweenInstructions : Obligations.NoHazardBetweenInstructions := by
  unfold Obligations.NoHazardBetweenInstructions
  intro i d s t hhazards hexec hdest
  obtain ⟨hcfg, r, hwrites⟩ := exec_writes hexec hdest
  refine ⟨r, hwrites, fun site o v hindex hv c hc => ?_⟩
  have hlt : effIndex t o.addr o.displaced < t.regs.length := (sourceOperand_isSome t site o).1 (Option.isSome_of_eq_some hv)
  have hwritten : t.channel (effIndex t o.addr o.displaced) (o.sel.get c) = some ⟨(r.get (o.sel.get c)).toNat, true⟩ := by
    rw [hindex] at hlt ⊢
    exact channel_of_writes hwrites hc hlt
  exact sourceOperand_get_of_written (hcfg ▸ hhazards) hv hwritten

end Sys2Proof.Proofs
end

section
/-! SUPPORT. The instructions by operation and branch type instead of constructor by constructor: seven forms, and what each field,
the encoder and the meaning are in each form (30_encoding.md R109, R110; 40_operand_datapath.md R130). -/

namespace Sys2Proof

/-- Every instruction is NOP, an operation in its R-form, in its I-form or fused with a branch, IO in one of its two forms, or
RSVR2 (R110). -/
theorem Instr.byForm {motive : Instr → Prop} (nop : ∀ eof, motive (.nop eof))
    (rForm : ∀ op ctl d a b, motive (.ofRForm op ctl d a b)) (iForm : ∀ op ctl d imm, motive (.ofIForm op ctl d imm))
    (branch : ∀ op ty ctl t a b, motive (.ofBranch op ty ctl t a b)) (io : ∀ ctl d a b, motive (.io ctl d a b))
    (ioI : ∀ ctl d imm, motive (.ioI ctl d imm)) (rsvr2 : ∀ w, motive (.rsvr2 w)) (i : Instr) : motive i := by
  cases i with
  | nop eof => exact nop eof
  | io ctl d a b => exact io ctl d a b
  | ioI ctl d imm => exact ioI ctl d imm
  | rsvr2 w => exact rsvr2 w
  | add ctl d a b => exact rForm .add ctl d a b
  | div ctl d a b => exact rForm .div ctl d a b
  | mul ctl d a b => exact rForm .mul ctl d a b
  | sqrt ctl d a b => exact rForm .sqrt ctl d a b
  | logic ctl d a b => exact rForm .logic ctl d a b
  | addI ctl d imm => exact iForm .add ctl d imm
  | divI ctl d imm => exact iForm .div ctl d imm
  | mulI ctl d imm => exact iForm .mul ctl d imm
  | sqrtI ctl d imm => exact iForm .sqrt ctl d imm
  | logicI ctl d imm => exact iForm .logic ctl d imm
  | addBranchAlways ctl t a b => exact branch .add .always ctl t a b
  | addBranchZero ctl t a b => exact branch .add .zero ctl t a b
  | addBranchNotZero ctl t a b => exact branch .add .notZero ctl t a b
  | addBranchSign ctl t a b => exact branch .add .sign ctl t a b
  | addBranchNotSign ctl t a b => exact branch .add .notSign ctl t a b
  | addBranchZeroOrSign ctl t a b => exact branch .add .zeroOrSign ctl t a b
  | addBranchZeroOrNotSign ctl t a b => exact branch .add .zeroOrNotSign ctl t a b
  | divBranchAlways ctl t a b => exact branch .div .always ctl t a b
  | divBranchZero ctl t a b => exact branch .div .zero ctl t a b
  | divBranchNotZero ctl t a b => exact branch .div .notZero ctl t a b
  | divBranchSign ctl t a b => exact branch .div .sign ctl t a b
  | divBranchNotSign ctl t a b => exact branch .div .notSign ctl t a b
  | divBranchZeroOrSign ctl t a b => exact branch .div .zeroOrSign ctl t a b
  | divBranchZeroOrNotSign ctl t a b => exact branch .div .zeroOrNotSign ctl t a b
  | mulBranchAlways ctl t a b => exact branch .mul .always ctl t a b
  | mulBranchZero ctl t a b => exact branch .mul .zero ctl t a b
  | mulBranchNotZero ctl t a b => exact branch .mul .notZero ctl t a b
  | mulBranchSign ctl t a b => exact branch .mul .sign ctl t a b
  | mulBranchNotSign ctl t a b => exact branch .mul .notSign ctl t a b
  | mulBranchZeroOrSign ctl t a b => exact branch .mul .zeroOrSign ctl t a b
  | mulBranchZeroOrNotSign ctl t a b => exact branch .mul .zeroOrNotSign ctl t a b
  | sqrtBranchAlways ctl t a b => exact branch .sqrt .always ctl t a b
  | sqrtBranchZero ctl t a b => exact branch .sqrt .zero ctl t a b
  | sqrtBranchNotZero ctl t a b => exact branch .sqrt .notZero ctl t a b
  | sqrtBranchSign ctl t a b => exact branch .sqrt .sign ctl t a b
  | sqrtBranchNotSign ctl t a b => exact branch .sqrt .notSign ctl t a b
  | sqrtBranchZeroOrSign ctl t a b => exact branch .sqrt .zeroOrSign ctl t a b
  | sqrtBranchZeroOrNotSign ctl t a b => exact branch .sqrt .zeroOrNotSign ctl t a b
  | logicBranchAlways ctl t a b => exact branch .logic .always ctl t a b
  | logicBranchZero ctl t a b => exact branch .logic .zero ctl t a b
  | logicBranchNotZero ctl t a b => exact branch .logic .notZero ctl t a b
  | logicBranchSign ctl t a b => exact branch .logic .sign ctl t a b
  | logicBranchNotSign ctl t a b => exact branch .logic .notSign ctl t a b
  | logicBranchZeroOrSign ctl t a b => exact branch .logic .zeroOrSign ctl t a b
  | logicBranchZeroOrNotSign ctl t a b => exact branch .logic .zeroOrNotSign ctl t a b

section Forms

variable (op : AluOp) (ty : BranchType) (ctl : Control) (d : Dst) (t : BitVec 8) (a b : Src) (imm : Word)

/-! ## EOF and SCOP/LOP (R101, R103) -/

@[simp] theorem eof_ofRForm : (Instr.ofRForm op ctl d a b).eof = ctl.eof := by cases op <;> rfl
@[simp] theorem eof_ofIForm : (Instr.ofIForm op ctl d imm).eof = ctl.eof := by cases op <;> rfl
@[simp] theorem eof_ofBranch : (Instr.ofBranch op ty ctl t a b).eof = ctl.eof := by cases op <;> cases ty <;> rfl
@[simp] theorem scop_ofRForm : (Instr.ofRForm op ctl d a b).scop = ctl.scop := by cases op <;> rfl
@[simp] theorem scop_ofIForm : (Instr.ofIForm op ctl d imm).scop = ctl.scop := by cases op <;> rfl
@[simp] theorem scop_ofBranch : (Instr.ofBranch op ty ctl t a b).scop = ctl.scop := by cases op <;> cases ty <;> rfl

/-! ## Well-formedness (R109) -/

@[simp] theorem wellFormed_ofRForm : (Instr.ofRForm op ctl d a b).wellFormed = true := by cases op <;> rfl
@[simp] theorem wellFormed_ofIForm : (Instr.ofIForm op ctl d imm).wellFormed = true := by cases op <;> rfl
@[simp] theorem wellFormed_ofBranch : (Instr.ofBranch op ty ctl t a b).wellFormed = true := by
  cases op <;> cases ty <;> rfl

end Forms

/-- The configuration admits an instruction: the two checks, on SCOP/LOP (R101) and on EOF (R103). -/
theorem admittedBy_iff (cfg : Config) (i : Instr) :
    i.admittedBy cfg = true ↔ (cfg.scopTable = .absent → i.scop = 0) ∧ (cfg.eofModel = .refuse → i.eof = false) := by
  unfold Instr.admittedBy
  cases cfg.scopTable <;> cases cfg.eofModel <;> simp

end Sys2Proof

namespace Sys2Proof.Machine

/-! ## Destination and meaning (40_operand_datapath.md R130, R131) -/

section Forms

variable (op : AluOp) (ty : BranchType) (ctl : Control) (d : Dst) (t : BitVec 8) (a b : Src) (imm : Word)

@[simp] theorem destinationOf_ofRForm : destinationOf (.ofRForm op ctl d a b) = some d := by cases op <;> rfl
@[simp] theorem destinationOf_ofIForm : destinationOf (.ofIForm op ctl d imm) = some d := by cases op <;> rfl
@[simp] theorem destinationOf_ofBranch : destinationOf (.ofBranch op ty ctl t a b) = none := by
  cases op <;> cases ty <;> rfl

@[simp] theorem exec_nop (eof : Bool) (s : State) : exec (.nop eof) s = .next (retire eof (s.pc + 1) s) := rfl
@[simp] theorem exec_ofBranch (s : State) : exec (.ofBranch op ty ctl t a b) s = branchForm op ty ctl t a b s := by
  cases op <;> cases ty <;> rfl
@[simp] theorem exec_io (s : State) : exec (.io ctl d a b) s = execIo ctl d a b s := rfl
@[simp] theorem exec_ioI (s : State) :
    exec (.ioI ctl d imm) s =
      ioTransfer ctl.eof d (literalOperand s.cfg.width imm) (zeroOperand s.cfg.width) s := rfl
@[simp] theorem exec_rsvr2 (w : Insn) (s : State) : exec (.rsvr2 w) s = .refused .reservedOpcode := rfl

end Forms

end Sys2Proof.Machine
end

section
/-! SUPPORT. The decoder told once: a word decodes to an instruction exactly when its header is admitted and its fields are those of
the instruction's form (30_encoding.md R101 to R109). -/

namespace Sys2Proof

/-! ## The field values of Table 3 and Table 18, read backwards (R76, R81) -/

theorem eq_zero_of_opcodeClass {c : BitVec 3} (h : opcodeClass c = .nop) : c = 0 := by
  revert c
  decide

theorem eq_opcodeOf_of_opcodeClass {c : BitVec 3} {op : AluOp} (h : opcodeClass c = .alu op) : c = opcodeOf op := by
  cases op <;> revert c <;> decide

theorem eq_six_of_opcodeClass {c : BitVec 3} (h : opcodeClass c = .io) : c = 6 := by
  revert c
  decide

theorem eq_seven_of_opcodeClass {c : BitVec 3} (h : opcodeClass c = .rsvr2) : c = 7 := by
  revert c
  decide

theorem eq_bopOf_of_branchTypeOf {c : BitVec 3} {ty : BranchType} (h : branchTypeOf c = some ty) : c = bopOf ty := by
  cases ty <;> revert c <;> decide

theorem bopOf_ne_seven (ty : BranchType) : bopOf ty ≠ 7 := by cases ty <;> decide

/-! An operation's OPCODE is none of those of NOP, IO and RSVR2. -/

theorem opcodeOf_ne_zero (op : AluOp) : opcodeOf op ≠ 0 := by cases op <;> decide

theorem opcodeOf_ne_six (op : AluOp) : opcodeOf op ≠ 6 := by cases op <;> decide

theorem opcodeOf_ne_seven (op : AluOp) : opcodeOf op ≠ 7 := by cases op <;> decide

/-! ## The checks that pass -/

/-- BBIT and BOP pass: no branch and BOP = 0, or a branch of one of the seven types (R105). -/
theorem branchFieldRefusal_eq_none {w : Insn} :
    branchFieldRefusal w = none ↔ (fieldBbit w = false → fieldBop w = 0) ∧ (fieldBbit w = true → fieldBop w ≠ 7) := by
  unfold branchFieldRefusal
  cases fieldBbit w <;> simp

/-- The fields of an immediate word pass (R105, R106). -/
theorem immFieldRefusal_eq_none {w : Insn} :
    immFieldRefusal w = none ↔ fieldBbit w = false ∧ (fieldMode w = 4 ∨ fieldMode w = 5) ∧
      (fieldSign1 w).x = false ∧ (fieldSign1 w).y = false := by
  unfold immFieldRefusal
  have hmode : (fieldMode w = 4 ∨ fieldMode w = 5) ↔ (fieldMode w == 4 || fieldMode w == 5) = true := by simp
  rw [hmode]
  cases fieldBbit w <;> cases (fieldMode w == 4 || fieldMode w == 5) <;> cases (fieldSign1 w).x <;> simp

/-- The fields of a branch word pass (R105, R92). -/
theorem branchWordRefusal_eq_none {cfg : Config} {w : Insn} :
    branchWordRefusal cfg w = none ↔ fieldWe w = ⟨false, false, false⟩ ∧
      (cfg.branchModeBit47Ignored = false → w.getLsbD 47 = false) := by
  unfold branchWordRefusal
  obtain ⟨x, y, z⟩ := fieldWe w
  cases x <;> cases y <;> cases z <;> cases w.getLsbD 47 <;> simp

/-! ## The decoder -/

/-- What R109 asks of the header of every word. -/
structure HeaderAdmitted (cfg : Config) (w : Insn) : Prop where
  reserved : fieldReserved w = 0
  scop : cfg.scopTable = .absent → fieldScop w = 0
  eof : cfg.eofModel = .refuse → fieldEof w = false

/-- What the fields of a word are for it to stand for an instruction, form by form (R104 to R107). -/
inductive FieldsOf (cfg : Config) (w : Insn) : Instr → Prop where
  | nop (hopcode : fieldOpcode w = 0) (hbbit : fieldBbit w = false) (hbop : fieldBop w = 0)
      (hcanonical : w &&& 0xFBFFFFFFFFFFFFFF = 0) : FieldsOf cfg w (.nop (fieldEof w))
  | rForm {a b : Src} (op : AluOp) (hopcode : fieldOpcode w = opcodeOf op) (hbbit : fieldBbit w = false) (hbop : fieldBop w = 0)
      (himm : fieldImm w = false) (ha : decodeSrc1 w = some a) (hb : decodeSrc0 w = some b) :
      FieldsOf cfg w (.ofRForm op (fieldControl w) (decodeDstRForm w) a b)
  | iForm (op : AluOp) (hopcode : fieldOpcode w = opcodeOf op) (hbbit : fieldBbit w = false) (hbop : fieldBop w = 0)
      (himm : fieldImm w = true) (hfields : immFieldRefusal w = none) :
      FieldsOf cfg w (.ofIForm op (fieldControl w) (decodeDstIForm w) (fieldImmv w))
  | branch {a b : Src} (op : AluOp) (ty : BranchType) (hopcode : fieldOpcode w = opcodeOf op) (hbbit : fieldBbit w = true)
      (hbop : fieldBop w = bopOf ty) (himm : fieldImm w = false) (ha : decodeSrc1 w = some a) (hb : decodeSrc0 w = some b)
      (hfields : branchWordRefusal cfg w = none) :
      FieldsOf cfg w (.ofBranch op ty (fieldControl w) (fieldDstIndex w) a b)
  | io {a b : Src} (hopcode : fieldOpcode w = 6) (hbbit : fieldBbit w = false) (hbop : fieldBop w = 0) (himm : fieldImm w = false)
      (ha : decodeSrc1 w = some a) (hb : decodeSrc0 w = some b) :
      FieldsOf cfg w (.io (fieldControl w) (decodeDstRForm w) a b)
  | ioI (hopcode : fieldOpcode w = 6) (hbbit : fieldBbit w = false) (hbop : fieldBop w = 0) (himm : fieldImm w = true)
      (hfields : immFieldRefusal w = none) : FieldsOf cfg w (.ioI (fieldControl w) (decodeDstIForm w) (fieldImmv w))
  | rsvr2 (hopcode : fieldOpcode w = 7) : FieldsOf cfg w (.rsvr2 w)

/-- What the decoder admits under OPCODE = 000 (R94, R107). -/
theorem fieldsOf_of_decodeNop {w : Insn} {i : Instr} (cfg : Config) (hopcode : fieldOpcode w = 0)
    (hbranch : branchFieldRefusal w = none) (h : decodeNop w = .ok i) : FieldsOf cfg w i := by
  unfold decodeNop at h
  split at h
  · cases h
  · rename_i hmask
    obtain rfl := Except.ok.inj h
    have hcanonical : w &&& 0xFBFFFFFFFFFFFFFF = 0 := by simpa using hmask
    have hbbit : fieldBbit w = false := by
      have hbit := congrArg (fun v : Insn => v.getLsbD 57) hcanonical
      simpa [fieldBbit] using hbit
    exact .nop hopcode hbbit ((branchFieldRefusal_eq_none.1 hbranch).1 hbbit) hcanonical

/-- What the decoder admits under the OPCODE of an operation (R104 to R106). -/
theorem fieldsOf_of_decodeAlu {cfg : Config} {op : AluOp} {w : Insn} {i : Instr} (hopcode : fieldOpcode w = opcodeOf op)
    (hbranch : branchFieldRefusal w = none) (h : decodeAlu cfg op w = .ok i) : FieldsOf cfg w i := by
  obtain ⟨hbop, -⟩ := branchFieldRefusal_eq_none.1 hbranch
  unfold decodeAlu at h
  split at h
  · rename_i himm
    split at h
    · cases h
    · rename_i hfields
      obtain rfl := Except.ok.inj h
      obtain ⟨hbbit, -⟩ := immFieldRefusal_eq_none.1 hfields
      exact .iForm op hopcode hbbit (hbop hbbit) himm hfields
  · rename_i himm
    have himm : fieldImm w = false := by simpa using himm
    split at h
    · rename_i a b ha hb
      split at h
      · rename_i hbbit
        split at h
        · cases h
        · rename_i ty hfields hty
          obtain rfl := Except.ok.inj h
          exact .branch op ty hopcode hbbit (eq_bopOf_of_branchTypeOf hty) himm ha hb hfields
        · cases h
      · rename_i hbbit
        have hbbit : fieldBbit w = false := by simpa using hbbit
        obtain rfl := Except.ok.inj h
        exact .rForm op hopcode hbbit (hbop hbbit) himm ha hb
    · cases h

/-- What the decoder admits under the OPCODE of IO (R104 to R106). -/
theorem fieldsOf_of_decodeIo {w : Insn} {i : Instr} (cfg : Config) (hopcode : fieldOpcode w = 6)
    (hbranch : branchFieldRefusal w = none) (h : decodeIo w = .ok i) : FieldsOf cfg w i := by
  obtain ⟨hbop, -⟩ := branchFieldRefusal_eq_none.1 hbranch
  unfold decodeIo at h
  split at h
  · rename_i himm
    split at h
    · cases h
    · rename_i hfields
      obtain rfl := Except.ok.inj h
      obtain ⟨hbbit, -⟩ := immFieldRefusal_eq_none.1 hfields
      exact .ioI hopcode hbbit (hbop hbbit) himm hfields
  · rename_i himm
    have himm : fieldImm w = false := by simpa using himm
    split at h
    · rename_i a b ha hb
      split at h
      · cases h
      · rename_i hbbit
        have hbbit : fieldBbit w = false := by simpa using hbbit
        obtain rfl := Except.ok.inj h
        exact .io hopcode hbbit (hbop hbbit) himm ha hb
    · cases h

/-- The header of an admitted word, and the fields of its form (R109). -/
theorem fieldsOf_of_decode {cfg : Config} {w : Insn} {i : Instr} (h : decode cfg w = .ok i) :
    HeaderAdmitted cfg w ∧ FieldsOf cfg w i := by
  unfold decode at h
  split at h
  · cases h
  · rename_i hreserved
    split at h
    · cases h
    · rename_i hscop
      split at h
      · cases h
      · rename_i heof
        refine ⟨⟨by simpa using hreserved, fun ht => by simpa [ht] using hscop, fun hm => by simpa [hm] using heof⟩, ?_⟩
        split at h
        · rename_i hclass
          obtain rfl := Except.ok.inj h
          exact .rsvr2 (eq_seven_of_opcodeClass hclass)
        · cases h
        · rename_i hclass hbranch
          exact fieldsOf_of_decodeNop cfg (eq_zero_of_opcodeClass hclass) hbranch h
        · rename_i op hclass hbranch
          exact fieldsOf_of_decodeAlu (eq_opcodeOf_of_opcodeClass hclass) hbranch h
        · rename_i hclass hbranch
          exact fieldsOf_of_decodeIo cfg (eq_six_of_opcodeClass hclass) hbranch h

/-- A word with an admitted header and the fields of a form decodes to that form's instruction (R109). -/
theorem decode_of_fieldsOf {cfg : Config} {w : Insn} {i : Instr} (hheader : HeaderAdmitted cfg w) (h : FieldsOf cfg w i) :
    decode cfg w = .ok i := by
  obtain ⟨hreserved, hscop, heof⟩ := hheader
  have hscop : ¬ (fieldScop w != 0 && cfg.scopTable == .absent) = true := by
    cases ht : cfg.scopTable with
    | absent => simp [hscop ht]
    | supplied => simp
  have heof : ¬ (fieldEof w && cfg.eofModel == .refuse) = true := by
    cases hm : cfg.eofModel with
    | endsRun => simp
    | refuse => simp [heof hm]
  have hplain : fieldBbit w = false → fieldBop w = 0 → branchFieldRefusal w = none := fun hbbit hbop =>
    branchFieldRefusal_eq_none.2 ⟨fun _ => hbop, by simp [hbbit]⟩
  rw [decode, if_neg (by simp [hreserved]), if_neg hscop, if_neg heof]
  cases h with
  | nop hopcode hbbit hbop hcanonical =>
    rw [hopcode, hplain hbbit hbop]
    exact if_neg (by simp only [hcanonical]; decide)
  | rForm op hopcode hbbit hbop himm ha hb =>
    rw [hopcode, hplain hbbit hbop, opcodeClass_opcodeOf]
    simp [decodeAlu, himm, ha, hb, hbbit]
  | iForm op hopcode hbbit hbop himm hfields =>
    rw [hopcode, hplain hbbit hbop, opcodeClass_opcodeOf]
    simp [decodeAlu, himm, hfields]
  | branch op ty hopcode hbbit hbop himm ha hb hfields =>
    have hbranch : branchFieldRefusal w = none :=
      branchFieldRefusal_eq_none.2 ⟨by simp [hbbit], fun _ => hbop ▸ bopOf_ne_seven ty⟩
    rw [hopcode, hbranch, opcodeClass_opcodeOf]
    simp [decodeAlu, himm, ha, hb, hbbit, hfields, hbop]
  | io hopcode hbbit hbop himm ha hb =>
    rw [hopcode, hplain hbbit hbop]
    simp [opcodeClass, decodeIo, himm, ha, hb, hbbit]
  | ioI hopcode hbbit hbop himm hfields =>
    rw [hopcode, hplain hbbit hbop]
    simp [opcodeClass, decodeIo, himm, hfields]
  | rsvr2 hopcode =>
    rw [hopcode]
    rfl

end Sys2Proof
end

section
/-! SUPPORT. The encoder undoes the decoder: the operands that the decoder reads pack to the fields they were read from, so the word of
a form is the word it was read from (30_encoding.md R72, R109, R122). -/

namespace Sys2Proof

/-! ## Fields as slices of the word -/

/-- Three flags read from neighbouring bits pack to the slice they stand in. -/
theorem packBools_bits (w : Insn) (k : Nat) :
    packBools ⟨w.getLsbD (k + 2), w.getLsbD (k + 1), w.getLsbD k⟩ = w.extractLsb' k 3 := by
  unfold packBools
  simp only [ofBool_getLsbD]
  rw [BitVec.extractLsb'_append_extractLsb'_eq_extractLsb' (by omega),
    BitVec.extractLsb'_append_extractLsb'_eq_extractLsb' (by omega)]

/-- A flag that is known is its one-bit slice. -/
theorem extractLsb'_one_of_getLsbD {w : Insn} {k : Nat} {v : Bool} (h : w.getLsbD k = v) :
    w.extractLsb' k 1 = BitVec.ofBool v := by
  rw [← ofBool_getLsbD, h]

/-- MODE of an R-form or a branch: its bits say which operands are displaced (R90). -/
theorem packBools_mode (w : Insn) : packBools ⟨w.getLsbD 47, w.getLsbD 46, w.getLsbD 45⟩ = fieldMode w := packBools_bits w 45

/-- The write enables (R77). -/
theorem packBools_fieldWe (w : Insn) : packBools (fieldWe w) = w.extractLsb' 42 3 := packBools_bits w 42

/-- MODE of an I-form whose destination the decoder read (R91). -/
theorem mode_decodeDstIForm {w : Insn} (h : fieldMode w = 4 ∨ fieldMode w = 5) :
    (if (decodeDstIForm w).displaced then (5 : BitVec 3) else 4) = fieldMode w := by
  rcases h with h | h <;> simp [decodeDstIForm, h]

/-- SIGN1X and SIGN1Y that are 0 (R106). -/
theorem sign1xy_eq_zero {w : Insn} (hx : (fieldSign1 w).x = false) (hy : (fieldSign1 w).y = false) :
    w.extractLsb' 32 2 = 0 := by
  have hsplit : w.extractLsb' 32 2 = w.extractLsb' 33 1 ++ w.extractLsb' 32 1 :=
    (BitVec.extractLsb'_append_extractLsb'_eq_extractLsb' (len₁ := 1) (len₂ := 1) rfl).symm
  rw [hsplit, extractLsb'_one_of_getLsbD hx, extractLsb'_one_of_getLsbD hy]
  rfl

/-! ## Sources -/

/-- The fields of source 1 as the decoder reads them (R78, R80, R83, R90). -/
theorem decodeSrc1_eq_some {w : Insn} {a : Src} (h : decodeSrc1 w = some a) :
    a.displaced = w.getLsbD 46 ∧ encodeSign1XY a = w.extractLsb' 32 2 ∧ BitVec.ofBool a.neg.z = w.extractLsb' 31 1 ∧
      packSwizzle a.sel = w.extractLsb' 25 6 ∧ a.addr = w.extractLsb' 17 8 := by
  obtain ⟨sel, hsel, rfl⟩ := Option.map_eq_some_iff.1 h
  have hswz : packSwizzle sel = w.extractLsb' 25 6 := by
    rw [packSwizzle_of_swizzleOf hsel]
    simp only [fieldSwz1]
    rw [BitVec.extractLsb'_append_extractLsb'_eq_extractLsb' (by decide),
      BitVec.extractLsb'_append_extractLsb'_eq_extractLsb' (by decide)]
  have hsign : encodeSign1XY ⟨fieldSrc1Addr w, w.getLsbD 46, fieldSign1 w, sel⟩ = w.extractLsb' 32 2 := by
    simp only [encodeSign1XY, fieldSign1, ofBool_getLsbD]
    rw [BitVec.extractLsb'_append_extractLsb'_eq_extractLsb' (by decide)]
  exact ⟨rfl, hsign, ofBool_getLsbD w 31, hswz, rfl⟩

/-- The fields of source 0 as the decoder reads them (R78, R80, R83, R90). -/
theorem decodeSrc0_eq_some {w : Insn} {b : Src} (h : decodeSrc0 w = some b) :
    b.displaced = w.getLsbD 45 ∧ packBools b.neg = w.extractLsb' 14 3 ∧ packSwizzle b.sel = w.extractLsb' 8 6 ∧
      b.addr = w.extractLsb' 0 8 := by
  obtain ⟨sel, hsel, rfl⟩ := Option.map_eq_some_iff.1 h
  have hswz : packSwizzle sel = w.extractLsb' 8 6 := by
    rw [packSwizzle_of_swizzleOf hsel]
    simp only [fieldSwz0]
    rw [BitVec.extractLsb'_append_extractLsb'_eq_extractLsb' (by decide),
      BitVec.extractLsb'_append_extractLsb'_eq_extractLsb' (by decide)]
  exact ⟨rfl, packBools_bits w 14, hswz, rfl⟩

/-- A slice of the low half is that slice of the word. -/
theorem extractLsb'_low (w : Insn) {k n : Nat} (h : k + n ≤ 32) : (w.extractLsb' 0 32).extractLsb' k n = w.extractLsb' k n := by
  apply BitVec.eq_of_getLsbD_eq
  intro i hi
  have hlt : k + i < 32 := by omega
  simp [hi, hlt]

/-- Two sources that the decoder read pack to the low half of the word (R72). -/
theorem encodeSources_of_decode {w : Insn} {a b : Src} (ha : decodeSrc1 w = some a) (hb : decodeSrc0 w = some b) :
    encodeSources a b = w.extractLsb' 0 32 := by
  obtain ⟨-, -, hz, hswz1, haddr1⟩ := decodeSrc1_eq_some ha
  obtain ⟨-, hsign0, hswz0, haddr0⟩ := decodeSrc0_eq_some hb
  rw [encodeSources, hz, hswz1, haddr1, hsign0, hswz0, haddr0, ← packSources_fields (w.extractLsb' 0 32)]
  repeat rw [extractLsb'_low w (by decide)]

/-! ## Words -/

/-- An R-form word is made of the fields that the decoder reads (R75, R90). -/
theorem encodeRForm_of_decode {w : Insn} {a b : Src} (hreserved : fieldReserved w = 0) (hbbit : fieldBbit w = false)
    (hbop : fieldBop w = 0) (himm : fieldImm w = false) (ha : decodeSrc1 w = some a) (hb : decodeSrc0 w = some b) :
    encodeRForm (fieldOpcode w) (fieldControl w) (decodeDstRForm w) a b = w := by
  obtain ⟨hda, hsign1, -⟩ := decodeSrc1_eq_some ha
  obtain ⟨hdb, -⟩ := decodeSrc0_eq_some hb
  have hmode : packBools ⟨(decodeDstRForm w).displaced, a.displaced, b.displaced⟩ = fieldMode w := by
    rw [hda, hdb]
    exact packBools_mode w
  rw [encodeRForm, hmode, hsign1, encodeSources_of_decode ha hb]
  conv_rhs => rw [← packWord_fields w]
  rw [extractLsb'_one_of_getLsbD himm, extractLsb'_one_of_getLsbD hbbit, show w.extractLsb' 54 3 = 0 from hbop,
    show w.extractLsb' 51 3 = 0 from hreserved, ← ofBool_getLsbD w 58, ← packBools_fieldWe]
  rfl

/-- An I-form word is made of the fields that the decoder reads (R75, R91). -/
theorem encodeIForm_of_decode {w : Insn} (hreserved : fieldReserved w = 0) (hbop : fieldBop w = 0) (himm : fieldImm w = true)
    (hfields : immFieldRefusal w = none) :
    encodeIForm (fieldOpcode w) (fieldControl w) (decodeDstIForm w) (fieldImmv w) = w := by
  obtain ⟨hbbit, hmode, hx, hy⟩ := immFieldRefusal_eq_none.1 hfields
  rw [encodeIForm, mode_decodeDstIForm hmode]
  conv_rhs => rw [← packWord_fields w]
  rw [extractLsb'_one_of_getLsbD himm, extractLsb'_one_of_getLsbD hbbit, show w.extractLsb' 54 3 = 0 from hbop,
    show w.extractLsb' 51 3 = 0 from hreserved, ← ofBool_getLsbD w 58, ← packBools_fieldWe, sign1xy_eq_zero hx hy]
  rfl

/-- A branch word whose bit 47 counts is made of the fields that the decoder reads (R81, R84, R92). -/
theorem encodeBranch_of_decode {cfg : Config} {w : Insn} {a b : Src} (hignored : cfg.branchModeBit47Ignored = false)
    (hreserved : fieldReserved w = 0) (hbbit : fieldBbit w = true) (himm : fieldImm w = false) (ha : decodeSrc1 w = some a)
    (hb : decodeSrc0 w = some b) (hfields : branchWordRefusal cfg w = none) :
    encodeBranch (fieldOpcode w) (fieldBop w) (fieldControl w) (fieldDstIndex w) a b = w := by
  obtain ⟨hwe, hbit47⟩ := branchWordRefusal_eq_none.1 hfields
  obtain ⟨hda, hsign1, -⟩ := decodeSrc1_eq_some ha
  obtain ⟨hdb, -⟩ := decodeSrc0_eq_some hb
  have hmode : packBools ⟨false, a.displaced, b.displaced⟩ = fieldMode w := by
    rw [hda, hdb, ← hbit47 hignored]
    exact packBools_mode w
  rw [encodeBranch, hmode, hsign1, encodeSources_of_decode ha hb]
  conv_rhs => rw [← packWord_fields w]
  rw [extractLsb'_one_of_getLsbD himm, extractLsb'_one_of_getLsbD hbbit, show w.extractLsb' 51 3 = 0 from hreserved,
    ← ofBool_getLsbD w 58, ← packBools_fieldWe, hwe]
  rfl

/-- The all-zero word, EOF apart, is the word of NOP (R94). -/
theorem encode_nop_of_canonical {w : Insn} (h : w &&& 0xFBFFFFFFFFFFFFFF = 0) : encode (.nop (fieldEof w)) = w := by
  apply BitVec.eq_of_getLsbD_eq
  intro k hk
  by_cases hbit : k = 58
  · subst hbit
    calc (encode (.nop (fieldEof w))).getLsbD 58
        _ = (BitVec.ofBool (fieldEof w)).getLsbD 0 := fieldEof_packWord ..
        _ = w.getLsbD 58 := by simp [fieldEof]
  · have hw := congrArg (fun v : Insn => v.getLsbD k) h
    have hmask : ∀ j < 64, j ≠ 58 → (0xFBFFFFFFFFFFFFFF : Insn).getLsbD j = true := by decide
    have hzero : ∀ eof, ∀ j < 64, j ≠ 58 → (encode (.nop eof)).getLsbD j = false := by decide
    simp only [BitVec.getLsbD_and, hmask k hk hbit, Bool.and_true] at hw
    rw [hzero _ k hk hbit, hw]
    simp

/-- A word with the fields of a form is the word of that form's instruction, where bit 47 of a branch counts. -/
theorem encode_of_fieldsOf {cfg : Config} {w : Insn} {i : Instr} (hignored : cfg.branchModeBit47Ignored = false)
    (hreserved : fieldReserved w = 0) (h : FieldsOf cfg w i) : encode i = w := by
  cases h with
  | nop hopcode hbbit hbop hcanonical => exact encode_nop_of_canonical hcanonical
  | rForm op hopcode hbbit hbop himm ha hb =>
    rw [encode_ofRForm, ← hopcode, encodeRForm_of_decode hreserved hbbit hbop himm ha hb]
  | iForm op hopcode hbbit hbop himm hfields =>
    rw [encode_ofIForm, ← hopcode, encodeIForm_of_decode hreserved hbop himm hfields]
  | branch op ty hopcode hbbit hbop himm ha hb hfields =>
    rw [encode_ofBranch, ← hopcode, ← hbop, encodeBranch_of_decode hignored hreserved hbbit himm ha hb hfields]
  | io hopcode hbbit hbop himm ha hb =>
    rw [encode_io, ← hopcode, encodeRForm_of_decode hreserved hbbit hbop himm ha hb]
  | ioI hopcode hbbit hbop himm hfields =>
    rw [encode_ioI, ← hopcode, encodeIForm_of_decode hreserved hbop himm hfields]
  | rsvr2 => rfl

/-! ## What an instruction keeps of its word -/

/-- EOF and SCOP/LOP of the instruction are those of its word (R101, R103). -/
theorem eof_scop_of_fieldsOf {cfg : Config} {w : Insn} {i : Instr} (h : FieldsOf cfg w i) :
    i.eof = fieldEof w ∧ i.scop = fieldScop w := by
  cases h with
  | nop hopcode hbbit hbop hcanonical =>
    have hscop : fieldScop (encode (.nop (fieldEof w))) = 0 := fieldScop_packWord ..
    rw [encode_nop_of_canonical hcanonical] at hscop
    exact ⟨rfl, hscop.symm⟩
  | rForm | iForm | branch => simp [fieldControl]
  | io | ioI | rsvr2 => exact ⟨rfl, rfl⟩

/-- A word with the fields of a form stands for a well-formed instruction (R109). -/
theorem wellFormed_of_fieldsOf {cfg : Config} {w : Insn} {i : Instr} (hreserved : fieldReserved w = 0) (h : FieldsOf cfg w i) :
    i.wellFormed = true := by
  cases h with
  | nop | io | ioI => rfl
  | rForm | iForm | branch => simp
  | rsvr2 hopcode =>
    have hop : w.extractLsb' 48 3 = 7 := hopcode
    have hres : w.extractLsb' 51 3 = 0 := hreserved
    simp [Instr.wellFormed, Instr.reservedOpcodeField, Instr.reservedHeader, hop, hres]

/-- What the header admits of the word, the configuration admits of the instruction (R101, R103). -/
theorem admittedBy_of_fieldsOf {cfg : Config} {w : Insn} {i : Instr} (hheader : HeaderAdmitted cfg w) (h : FieldsOf cfg w i) :
    i.admittedBy cfg = true := by
  obtain ⟨heof, hscop⟩ := eof_scop_of_fieldsOf h
  exact (admittedBy_iff cfg i).2 ⟨fun ht => hscop.trans (hheader.scop ht), fun hm => heof.trans (hheader.eof hm)⟩

/-! ## The fields of an encoded instruction -/

/-- The word of a well-formed instruction has the fields of its form, under every configuration (R72, R109). -/
theorem fieldsOf_encode (cfg : Config) (i : Instr) (h : i.wellFormed = true) : FieldsOf cfg (encode i) i := by
  cases i using Instr.byForm with
  | nop eof => cases eof <;> exact .nop (by decide) (by decide) (by decide) (by decide)
  | rForm op ctl d a b =>
    obtain ⟨ha, hb, hd, -, hscop, heof, hopcode, hbbit, hbop, himm⟩ := fields_encodeRForm (opcodeOf op) ctl d a b
    have hform := FieldsOf.rForm (cfg := cfg) op hopcode hbbit hbop himm ha hb
    rw [encode_ofRForm]
    rwa [fieldControl, heof, hscop, hd] at hform
  | iForm op ctl d imm =>
    obtain ⟨hd, hfields, himmv, -, hscop, heof, hopcode, hbbit, hbop, himm⟩ := fields_encodeIForm (opcodeOf op) ctl d imm
    have hform := FieldsOf.iForm (cfg := cfg) op hopcode hbbit hbop himm hfields
    rw [encode_ofIForm]
    rwa [fieldControl, heof, hscop, hd, himmv] at hform
  | branch op ty ctl t a b =>
    obtain ⟨ha, hb, ht, hwe, hbit47, -, hscop, heof, hopcode, hbbit, hbop, himm⟩ :=
      fields_encodeBranch (opcodeOf op) (bopOf ty) ctl t a b
    have hform := FieldsOf.branch (cfg := cfg) op ty hopcode hbbit hbop himm ha hb
      (branchWordRefusal_eq_none.2 ⟨hwe, fun _ => hbit47⟩)
    rw [encode_ofBranch]
    rwa [fieldControl, heof, hscop, ht] at hform
  | io ctl d a b =>
    obtain ⟨ha, hb, hd, -, hscop, heof, hopcode, hbbit, hbop, himm⟩ := fields_encodeRForm 6 ctl d a b
    have hform := FieldsOf.io (cfg := cfg) hopcode hbbit hbop himm ha hb
    rwa [fieldControl, heof, hscop, hd] at hform
  | ioI ctl d imm =>
    obtain ⟨hd, hfields, himmv, -, hscop, heof, hopcode, hbbit, hbop, himm⟩ := fields_encodeIForm 6 ctl d imm
    have hform := FieldsOf.ioI (cfg := cfg) hopcode hbbit hbop himm hfields
    rwa [fieldControl, heof, hscop, hd, himmv] at hform
  | rsvr2 w =>
    simp only [Instr.wellFormed, Instr.reservedOpcodeField, Bool.and_eq_true, beq_iff_eq] at h
    exact .rsvr2 h.1

/-- Bits 53:51 of the word of a well-formed instruction are 0, and its EOF and SCOP/LOP are the instruction's (R101 to R103). -/
theorem header_fields_encode (i : Instr) (h : i.wellFormed = true) :
    fieldReserved (encode i) = 0 ∧ fieldEof (encode i) = i.eof ∧ fieldScop (encode i) = i.scop := by
  cases i using Instr.byForm with
  | nop eof => cases eof <;> decide
  | rForm op ctl d a b =>
    obtain ⟨-, -, -, hreserved, hscop, heof, -⟩ := fields_encodeRForm (opcodeOf op) ctl d a b
    simp [hreserved, hscop, heof]
  | iForm op ctl d imm =>
    obtain ⟨-, -, -, hreserved, hscop, heof, -⟩ := fields_encodeIForm (opcodeOf op) ctl d imm
    simp [hreserved, hscop, heof]
  | branch op ty ctl t a b =>
    obtain ⟨-, -, -, -, -, hreserved, hscop, heof, -⟩ := fields_encodeBranch (opcodeOf op) (bopOf ty) ctl t a b
    simp [hreserved, hscop, heof]
  | io ctl d a b =>
    obtain ⟨-, -, -, hreserved, hscop, heof, -⟩ := fields_encodeRForm 6 ctl d a b
    exact ⟨hreserved, heof, hscop⟩
  | ioI ctl d imm =>
    obtain ⟨-, -, -, hreserved, hscop, heof, -⟩ := fields_encodeIForm 6 ctl d imm
    exact ⟨hreserved, heof, hscop⟩
  | rsvr2 w =>
    simp only [Instr.wellFormed, Instr.reservedHeader, Bool.and_eq_true, beq_iff_eq] at h
    exact ⟨h.2, rfl, rfl⟩

/-- The header of the word of an instruction that the configuration admits (R101 to R103). -/
theorem headerAdmitted_encode {cfg : Config} {i : Instr} (h : i.wellFormed = true) (hadmitted : i.admittedBy cfg = true) :
    HeaderAdmitted cfg (encode i) := by
  obtain ⟨hreserved, heof, hscop⟩ := header_fields_encode i h
  obtain ⟨hiscop, hieof⟩ := (admittedBy_iff cfg i).1 hadmitted
  exact ⟨hreserved, fun ht => hscop.trans (hiscop ht), fun hm => heof.trans (hieof hm)⟩

end Sys2Proof
end

section
/-! PROOFS. The two round trips between words and instructions. -/

namespace Sys2Proof.Proofs

open Sys2Proof Sys2Proof.Machine

/-- Settles O1: the word of a well-formed instruction has an admitted header and the fields of the instruction's form. -/
theorem decodeEncodeRoundTrip : Obligations.DecodeEncodeRoundTrip := by
  unfold Obligations.DecodeEncodeRoundTrip
  intro cfg i hwf hadmitted
  exact decode_of_fieldsOf (headerAdmitted_encode hwf hadmitted) (fieldsOf_encode cfg i hwf)

/-- Settles O2: an admitted word has the fields of a form, and the encoder puts these together again. -/
theorem encodeDecodeRoundTrip : Obligations.EncodeDecodeRoundTrip := by
  unfold Obligations.EncodeDecodeRoundTrip
  intro cfg w i hignored h
  obtain ⟨hheader, hfields⟩ := fieldsOf_of_decode h
  exact ⟨encode_of_fieldsOf hignored hheader.reserved hfields, wellFormed_of_fieldsOf hheader.reserved hfields,
    admittedBy_of_fieldsOf hheader hfields⟩

end Sys2Proof.Proofs
end

section
/-! SUPPORT. What an instruction that completes can have done, told once for every instruction (40_operand_datapath.md R130 to R139,
42_logic_io.md R192, 43_branch.md R210). -/

namespace Sys2Proof.Machine

/-- What an instruction adds to the history: IO under IO_MODEL = opaque one event, any other instruction nothing (R192). -/
inductive Records (s : State) : Instr → List IoEvent → Prop where
  | nothing {i : Instr} : Records s i []
  | io {ctl : Control} {d : Dst} {a b : Src} (hmodel : s.cfg.ioModel = .opaqueEvents) (hwritable : s.Writable d)
      (va vb : Vec s.cfg.width) : Records s (.io ctl d a b) [ioEvent d va vb s]
  | ioI {ctl : Control} {d : Dst} {imm : Word} (hmodel : s.cfg.ioModel = .opaqueEvents) (hwritable : s.Writable d)
      (va vb : Vec s.cfg.width) : Records s (.ioI ctl d imm) [ioEvent d va vb s]

/-- From `s` an instruction has completed in `t`: without a destination no register changes and `pc` goes to the next address or to
an 8-bit target; with one, it has written a result there, and `pc` goes to the next address. -/
inductive Completes (i : Instr) (s t : State) : Prop where
  | withoutDestination (hdest : destinationOf i = none) (hregs : t.regs = s.regs) (target : Nat)
      (htarget : target = s.pc + 1 ∨ target ≤ 255) (hadv : Advances s t i.eof target [])
  | withDestination (d : Dst) (r : Vec s.cfg.width) (events : List IoEvent) (hdest : destinationOf i = some d)
      (hevents : Records s i events) (hwrites : Writes s t d r)
      (hkeep : anyEnabled d.we = false → t.regs = s.regs) (hadv : Advances s t i.eof (s.pc + 1) events)

/-- The end of an instruction without write-back (R138, R139). -/
theorem advances_retire (eof : Bool) (target : Nat) (s : State) : Advances s (retire eof target s) eof target [] := by
  constructor <;> simp

/-- Everything about a write-back and advance that succeeds. -/
theorem completeWrite_told {W : Nat} {eof : Bool} {d : Dst} {r : Vec W} {s t : State} (h : completeWrite eof d r s = .next t) :
    s.Writable d ∧ Writes s t d r ∧ (anyEnabled d.we = false → t.regs = s.regs) ∧ Advances s t eof (s.pc + 1) [] := by
  obtain ⟨u, hu, rfl⟩ := completeWrite_eq_next h
  obtain ⟨hwrites, hframe⟩ := writeBack_writes hu
  refine ⟨(writeBack_isSome d r s).1 (Option.isSome_of_eq_some hu), hwrites, fun hno => ?_, ?_⟩
  · rcases writeBack_eq_some hu with ⟨-, rfl⟩ | ⟨hyes, -⟩
    · rfl
    · rw [hno] at hyes
      cases hyes
  · rw [hframe]
    exact ⟨rfl, rfl, (List.append_nil _).symm, rfl, rfl, rfl, rfl, rfl⟩

/-- An instruction with a destination completes by a write-back on the state with the events recorded. -/
theorem completes_of_completeWrite {i : Instr} {s t : State} {d : Dst} {r : Vec s.cfg.width} {events : List IoEvent}
    (hdest : destinationOf i = some d) (hevents : s.Writable d → Records s i events)
    (h : completeWrite i.eof d r { s with ioLog := s.ioLog ++ events } = .next t) : Completes i s t := by
  obtain ⟨hwritable, hwrites, hkeep, hadv⟩ := completeWrite_told h
  exact .withDestination d r events hdest (hevents hwritable) hwrites hkeep
    ⟨hadv.counter, hadv.halted, hadv.history.trans (List.append_nil _), hadv.tick, hadv.configuration, hadv.offset, hadv.memory,
      hadv.mark⟩

/-- The same for an instruction that records nothing. -/
theorem completes_of_plain_completeWrite {i : Instr} {s t : State} {d : Dst} {r : Vec s.cfg.width}
    (hdest : destinationOf i = some d) (h : completeWrite i.eof d r s = .next t) : Completes i s t :=
  completes_of_completeWrite (events := []) hdest (fun _ => .nothing) (by rwa [List.append_nil])

/-- Every instruction that answers a next state has completed in it. -/
theorem completes_of_exec {i : Instr} {s t : State} (h : exec i s = .next t) : Completes i s t := by
  cases i using Instr.byForm with
  | nop eof =>
    obtain rfl := Host.Outcome.next.inj h
    exact .withoutDestination rfl rfl (s.pc + 1) (.inl rfl) (advances_retire ..)
  | rForm op ctl d a b =>
    rw [exec_ofRForm] at h
    obtain ⟨va, vb, -, -, -, hwrite⟩ := rForm_eq_next h
    exact completes_of_plain_completeWrite (destinationOf_ofRForm ..) ((eof_ofRForm op ctl d a b).symm ▸ hwrite)
  | iForm op ctl d imm =>
    rw [exec_ofIForm] at h
    obtain ⟨-, hwrite⟩ := iForm_eq_next h
    exact completes_of_plain_completeWrite (destinationOf_ofIForm ..) ((eof_ofIForm op ctl d imm).symm ▸ hwrite)
  | branch op ty ctl tgt a b =>
    rw [exec_ofBranch] at h
    obtain ⟨va, vb, -, -, -, rfl⟩ := branchForm_eq_next h
    refine .withoutDestination (destinationOf_ofBranch ..) rfl _ ?_ (by rw [eof_ofBranch]; exact advances_retire ..)
    split
    · exact .inr (Nat.le_of_lt_succ tgt.isLt)
    · exact .inl rfl
  | io ctl d a b =>
    obtain ⟨va, vb, -, -, htransfer⟩ := execIo_eq_next h
    obtain ⟨hmodel, hwrite⟩ := ioTransfer_eq_next htransfer
    exact completes_of_completeWrite rfl (fun hwritable => .io hmodel hwritable va vb) hwrite
  | ioI ctl d imm =>
    obtain ⟨hmodel, hwrite⟩ := ioTransfer_eq_next h
    exact completes_of_completeWrite rfl (fun hwritable => .ioI hmodel hwritable _ _) hwrite
  | rsvr2 w => cases h

/-- Whatever an instruction does, it advances by at most one event, which it records as `Records` says. -/
theorem Completes.advances {i : Instr} {s t : State} (h : Completes i s t) :
    ∃ target events, (target = s.pc + 1 ∨ target ≤ 255) ∧ Records s i events ∧ Advances s t i.eof target events := by
  cases h with
  | withoutDestination hdest hregs target htarget hadv =>
    exact ⟨target, [], htarget, .nothing, hadv⟩
  | withDestination d r events hdest hevents hwrites hkeep hadv =>
    exact ⟨s.pc + 1, events, .inl rfl, hevents, hadv⟩

/-! ## Registers after an instruction -/

/-- A register's channel is the channel of the state. -/
theorem channel_of_getElem? {s : State} {i : Nat} {r : Reg} (h : s.regs[i]? = some r) (c : Chan) :
    s.channel i c = some (r.get c) := by
  simp [State.channel, h]

/-- A bound on the values of all channels, register by register or by index. -/
theorem forall_channel_value_lt_iff {s : State} {n : Nat} :
    (∀ r ∈ s.regs, ∀ c : Chan, (r.get c).value < n) ↔ ∀ i c u, s.channel i c = some u → u.value < n := by
  constructor
  · intro h i c u hu
    obtain ⟨r, hr, rfl⟩ := Option.map_eq_some_iff.1 hu
    exact h r (List.mem_of_getElem? hr) c
  · intro h r hr c
    obtain ⟨i, hi⟩ := List.getElem?_of_mem hr
    exact h i c _ (channel_of_getElem? hi c)

/-- A channel after a write: just written with a lane of the result, or as it was (R136). -/
theorem channel_cases_of_writes {W : Nat} {s t : State} {d : Dst} {r : Vec W} (h : Writes s t d r) (i : Nat) (c : Chan) :
    t.channel i c = some ⟨(r.get c).toNat, true⟩ ∨ t.channel i c = s.channel i c := by
  obtain ⟨-, hchannel⟩ := h
  rw [hchannel]
  split
  · exact .inl rfl
  · exact .inr rfl

/-- An instruction keeps the number of registers, and each channel or gives it a value of W bits. -/
theorem Completes.registers {i : Instr} {s t : State} (h : Completes i s t) :
    t.regs.length = s.regs.length ∧
      ∀ j c, (∃ v : BitVec s.cfg.width, t.channel j c = some ⟨v.toNat, true⟩) ∨ t.channel j c = s.channel j c := by
  cases h with
  | withoutDestination hdest hregs target htarget hadv => exact ⟨by rw [hregs], fun j c => .inr (by simp [State.channel, hregs])⟩
  | withDestination d r events hdest hevents hwrites hkeep hadv =>
    have ⟨hlength, _⟩ := hwrites
    exact ⟨hlength, fun j c => (channel_cases_of_writes hwrites j c).imp_left fun hc => ⟨r.get c, hc⟩⟩

/-! ## Events -/

/-- The event that an IO instruction records is one that can have happened, where it was fetched below IMEM_SIZE and its destination
can be written (R132, R192). -/
theorem ioEvent_ok {s : State} {d : Dst} (va vb : Vec s.cfg.width) (hpc : s.pc < s.cfg.imemSize) (hwritable : s.Writable d)
    (hlength : s.regs.length = s.cfg.regCount) : (ioEvent d va vb s).ok s.cfg = true := by
  unfold State.Writable at hwritable
  cases hwe : anyEnabled d.we with
  | false => simp [IoEvent.ok, ioEvent, hpc, hwe]
  | true =>
    have hlt : effIndex s d.index d.displaced < s.cfg.regCount := hlength ▸ hwritable hwe
    simp [IoEvent.ok, ioEvent, hpc, hwe, hlt]

/-- Every event that an instruction records can have happened, and none is recorded under IO_MODEL = refuse. -/
theorem Records.ok {s : State} {i : Instr} {events : List IoEvent} (h : Records s i events)
    (hpc : s.pc < s.cfg.imemSize) (hlength : s.regs.length = s.cfg.regCount) :
    (∀ e ∈ events, e.ok s.cfg = true) ∧ (s.cfg.ioModel = .refuse → events = []) := by
  cases h with
  | nothing => exact ⟨List.forall_mem_nil _, fun _ => rfl⟩
  | io hmodel hwritable va vb | ioI hmodel hwritable va vb =>
    refine ⟨List.forall_mem_singleton.2 (ioEvent_ok va vb hpc hwritable hlength), fun hrefuse => ?_⟩
    rw [hmodel] at hrefuse
    cases hrefuse

/-- At most one event is recorded. -/
theorem Records.length_le {s : State} {i : Instr} {events : List IoEvent} (h : Records s i events) :
    events.length ≤ 1 := by
  cases h <;> simp

/-- A step that completes has fetched a word at `pc`, which decodes to an instruction that has completed. -/
theorem completes_of_step {s t : State} (h : step s = .next t) :
    s.refused = none ∧ s.halted = false ∧
      ∃ w i, ifetch s s.pc = some w ∧ decode s.cfg w = .ok i ∧ Completes i s t := by
  obtain ⟨i, hi, hexec⟩ := step_eq_next h
  obtain ⟨hrefused, hhalted, w, hw, hdecode⟩ := fetchDecode_eq_instruction hi
  exact ⟨hrefused, hhalted, w, i, hw, hdecode, completes_of_exec hexec⟩

end Sys2Proof.Machine
end

section
/-! PROOFS. The statements about what every step keeps. -/

namespace Sys2Proof.Proofs

open Sys2Proof Sys2Proof.Machine

/-- Settles O43, clause by clause of the invariant, from what an instruction that completes can have done. -/
theorem stepKeepsTheInvariant : Obligations.StepKeepsTheInvariant := by
  unfold Obligations.StepKeepsTheInvariant
  intro s t hinv hstep
  obtain ⟨-, -, w, i, hw, -, hcompletes⟩ := completes_of_step hstep
  obtain ⟨hpc, -⟩ := ifetch_eq_some hw
  obtain ⟨hlength, hchannels⟩ := hcompletes.registers
  obtain ⟨target, events, htarget, hrecords, hadv⟩ := hcompletes.advances
  obtain ⟨hok, hsilent⟩ := hrecords.ok hpc hinv.registers
  have hcfg : t.cfg = s.cfg := hadv.configuration
  constructor
  case memory => rw [hadv.memory]; exact hinv.memory
  case registers => rw [hlength, hcfg]; exact hinv.registers
  case values =>
    rw [hcfg]
    refine forall_channel_value_lt_iff.2 fun j c u hu => ?_
    rcases hchannels j c with ⟨v, hv⟩ | hsame
    · obtain rfl := Option.some.inj (hv.symm.trans hu)
      exact v.isLt
    · exact forall_channel_value_lt_iff.1 hinv.values j c u (hsame ▸ hu)
  case counter => rw [hadv.counter, hcfg]; omega
  case events =>
    rw [hadv.history, hcfg]
    exact List.forall_mem_append.2 ⟨hinv.events, hok⟩
  case silent =>
    rw [hadv.history, hcfg]
    intro hrefuse
    rw [hinv.silent hrefuse, hsilent hrefuse, List.append_nil]

/-- Settles O14: the two cases of an instruction that completes, with and without a destination. -/
theorem writeBackUnderTheWriteEnables : Obligations.WriteBackUnderTheWriteEnables := by
  unfold Obligations.WriteBackUnderTheWriteEnables
  intro i s t hexec
  cases completes_of_exec hexec with
  | withoutDestination hdest hregs _ _ _ => exact ⟨fun d hd => absurd (hdest.symm.trans hd) (by simp), fun _ => hregs⟩
  | withDestination d r events hdest hevents hwrites hkeep hadv =>
    refine ⟨fun d' hd' => ?_, fun hnone => absurd (hdest.symm.trans hnone) (by simp)⟩
    obtain rfl := Option.some.inj (hdest.symm.trans hd')
    exact ⟨hadv.counter, ⟨r, hwrites⟩, hkeep⟩

/-- Settles O45, from the advance of an instruction that completes and what it leaves in the registers. -/
theorem noInstructionChangesTheLaunch : Obligations.NoInstructionChangesTheLaunch := by
  unfold Obligations.NoInstructionChangesTheLaunch
  intro s t hstep
  obtain ⟨hrefused, -, w, i, -, -, hcompletes⟩ := completes_of_step hstep
  obtain ⟨hlength, hchannels⟩ := hcompletes.registers
  obtain ⟨target, events, -, hrecords, hadv⟩ := hcompletes.advances
  refine ⟨hadv.offset, hadv.memory, hadv.configuration, hlength, hadv.mark.trans hrefused, hadv.tick, fun j c u hu hwritten => ?_,
    events, hadv.history, hrecords.length_le⟩
  rcases hchannels j c with ⟨v, hv⟩ | hsame
  · exact ⟨_, hv, rfl⟩
  · exact ⟨u, hsame.trans hu, hwritten⟩

/-- Settles O46: an instruction that is no IO records nothing. -/
theorem onlyIoRecordsEvents : Obligations.OnlyIoRecordsEvents := by
  unfold Obligations.OnlyIoRecordsEvents
  intro i s t hexec hio hioI
  obtain ⟨_, events, -, hrecords, hadv⟩ := (completes_of_exec hexec).advances
  cases hrecords with
  | nothing => rw [hadv.history, List.append_nil]
  | io => exact absurd rfl (hio _ _ _ _)
  | ioI => exact absurd rfl (hioI _ _ _)

/-- Settles O47: the machine was not halted, so the mark is the instruction's EOF, which is that of its word. -/
theorem haltedExactlyAfterEof : Obligations.HaltedExactlyAfterEof := by
  unfold Obligations.HaltedExactlyAfterEof
  intro s t hstep
  obtain ⟨-, hhalted, w, i, hw, hdecode, hcompletes⟩ := completes_of_step hstep
  obtain ⟨_, _, -, -, hadv⟩ := hcompletes.advances
  obtain ⟨-, hfields⟩ := fieldsOf_of_decode hdecode
  obtain ⟨heof, -⟩ := eof_scop_of_fieldsOf hfields
  exact ⟨w, hw, by rw [hadv.halted, hhalted, Bool.false_or, heof]⟩

end Sys2Proof.Proofs
end

section
/-! SUPPORT. Two states that differ only in values under the mark "unwritten": every operation of the datapath answers alike in both
(10_state.md R23, decision D19). -/

namespace Sys2Proof.Machine

theorem Reg.Agree.get {r r' : Reg} (h : Reg.Agree r r') (c : Chan) : Channel.Agree (r.get c) (r'.get c) := by
  obtain ⟨hx, hy, hz⟩ := h
  cases c with
  | x => exact hx
  | y => exact hy
  | z => exact hz

/-- Channels that agree read alike: a written one gives its value, an unwritten one the draw (R23). -/
theorem Channel.Agree.read_eq {W : Nat} {u v : Channel} (h : Channel.Agree u v) (cfg : Config) (free : BitVec W) :
    u.read cfg free = v.read cfg free := by
  obtain ⟨hwritten, hvalue⟩ := h
  cases hu : u.written with
  | false => rw [read_of_unwritten hu, read_of_unwritten (hwritten ▸ hu)]
  | true => simp [Channel.read, ← hwritten, hu, hvalue hu]

/-- Registers at the same index: both absent, or both there and in agreement. -/
theorem getElem?_agree {l l' : List Reg} (h : List.Forall₂ Reg.Agree l l') (e : Nat) :
    (l[e]? = none ∧ l'[e]? = none) ∨ ∃ r r', l[e]? = some r ∧ l'[e]? = some r' ∧ Reg.Agree r r' := by
  induction h generalizing e with
  | nil => exact .inl ⟨rfl, rfl⟩
  | cons hr _ ih =>
    cases e with
    | zero => exact .inr ⟨_, _, rfl, rfl, hr⟩
    | succ e => exact ih e

/-- Replacing a register by registers in agreement keeps the agreement. -/
theorem forall₂_set {l l' : List Reg} (h : List.Forall₂ Reg.Agree l l') {r r' : Reg} (hr : Reg.Agree r r') (e : Nat) :
    List.Forall₂ Reg.Agree (l.set e r) (l'.set e r') := by
  induction h generalizing e with
  | nil => exact .nil
  | cons h0 htail ih =>
    cases e with
    | zero => exact .cons hr htail
    | succ e => exact .cons h0 (ih e)

/-- Writing the same lanes over registers in agreement gives registers in agreement (R136). -/
theorem mergeReg_agree {W : Nat} {old old' : Reg} (h : Reg.Agree old old') (we : Vec3 Bool) (r : Vec W) :
    Reg.Agree (mergeReg we r old) (mergeReg we r old') := by
  have hlane : ∀ (b : Bool) (u v new : Channel), Channel.Agree u v →
      Channel.Agree (if b then new else u) (if b then new else v) := by
    intro b u v new huv
    cases b with
    | false => exact huv
    | true => exact ⟨rfl, fun _ => rfl⟩
  obtain ⟨hx, hy, hz⟩ := h
  exact ⟨hlane _ _ _ _ hx, hlane _ _ _ _ hy, hlane _ _ _ _ hz⟩

/-- A source whose register is there, and what it is prepared to (R132, R133). -/
theorem sourceOperand_of_regAt {s : State} {o : Src} {r : Reg} {site : DrawSite}
    (h : regAt s (effIndex s o.addr o.displaced) = some r) :
    sourceOperand s site o = some (Vec3.ofLanes (sourceLane s site o r)) := by
  rw [sourceOperand, h]

/-- A source whose register is not there (R132). -/
theorem sourceOperand_of_regAt_none {s : State} {o : Src} {site : DrawSite}
    (h : regAt s (effIndex s o.addr o.displaced) = none) : sourceOperand s site o = none := by
  rw [sourceOperand, h]

section Replaced

variable {s : State} {rs : List Reg} (h : List.Forall₂ Reg.Agree s.regs rs)
include h

/-- A source is prepared alike (R132, R133). -/
theorem sourceOperand_agree (site : DrawSite) (o : Src) :
    sourceOperand { s with regs := rs } site o = (sourceOperand s site o : Option (Vec s.cfg.width)) := by
  rcases getElem?_agree h (effIndex s o.addr o.displaced) with ⟨hnone, hnone'⟩ | ⟨r, r', hr, hr', hagree⟩
  · exact (sourceOperand_of_regAt_none (s := { s with regs := rs }) hnone').trans (sourceOperand_of_regAt_none hnone).symm
  · rw [sourceOperand_of_regAt (s := { s with regs := rs }) hr', sourceOperand_of_regAt hr]
    refine congrArg some (Vec3_eq_of_get fun c => ?_)
    rw [Vec3_get_ofLanes, Vec3_get_ofLanes]
    unfold sourceLane
    rw [(hagree.get (o.sel.get c)).read_eq]
    rfl

/-- The end of an instruction leaves states in agreement (R138, R139). -/
theorem retire_agree (eof : Bool) (target : Nat) : State.Agree (retire eof target s) (retire eof target { s with regs := rs }) :=
  ⟨h, rfl⟩

/-- Write-back and advance answer alike (R132, R136). -/
theorem completeWrite_agree {W : Nat} (eof : Bool) (d : Dst) (r : Vec W) :
    StepResult.Agree (completeWrite eof d r s) (completeWrite eof d r { s with regs := rs }) := by
  unfold completeWrite writeBack
  cases anyEnabled d.we with
  | false => exact retire_agree h ..
  | true =>
    rcases getElem?_agree h (effIndex s d.index d.displaced) with ⟨hnone, hnone'⟩ | ⟨old, old', hold, hold', hagree⟩
    · rw [show regAt { s with regs := rs } (effIndex { s with regs := rs } ..) = none from hnone', show regAt s _ = none from hnone]
      rfl
    · rw [show regAt { s with regs := rs } (effIndex { s with regs := rs } ..) = some old' from hold',
        show regAt s _ = some old from hold]
      exact ⟨forall₂_set h (mergeReg_agree hagree ..) _, rfl⟩

/-- An R-form answers alike (R130). -/
theorem rForm_agree (op : AluOp) (ctl : Control) (d : Dst) (a b : Src) :
    StepResult.Agree (rForm op ctl d a b s) (rForm op ctl d a b { s with regs := rs }) := by
  unfold rForm
  rw [sourceOperand_agree h, sourceOperand_agree h]
  cases sourceOperand s .source1 a with
  | none => rfl
  | some va =>
    cases sourceOperand s .source0 b with
    | none => rfl
    | some vb =>
      rw [show aluRefusal op { s with regs := rs } = aluRefusal op s from rfl]
      cases aluRefusal op s with
      | some r => rfl
      | none => exact completeWrite_agree h ctl.eof d (aluResult op ctl.scop s va vb)

/-- An I-form answers alike (R130, R134). -/
theorem iForm_agree (op : AluOp) (ctl : Control) (d : Dst) (imm : Word) :
    StepResult.Agree (iForm op ctl d imm s) (iForm op ctl d imm { s with regs := rs }) := by
  unfold iForm
  rw [show aluRefusal op { s with regs := rs } = aluRefusal op s from rfl]
  cases aluRefusal op s with
  | some r => rfl
  | none => exact completeWrite_agree h ..

/-- A branch answers alike (43_branch.md R210). -/
theorem branchForm_agree (op : AluOp) (ty : BranchType) (ctl : Control) (t : BitVec 8) (a b : Src) :
    StepResult.Agree (branchForm op ty ctl t a b s) (branchForm op ty ctl t a b { s with regs := rs }) := by
  unfold branchForm
  rw [sourceOperand_agree h, sourceOperand_agree h]
  cases sourceOperand s .source1 a with
  | none => rfl
  | some va =>
    cases sourceOperand s .source0 b with
    | none => rfl
    | some vb =>
      rw [show aluRefusal op { s with regs := rs } = aluRefusal op s from rfl]
      cases aluRefusal op s with
      | some r => rfl
      | none => exact retire_agree h ..

/-- IO on the same operands answers alike (42_logic_io.md R192). -/
theorem ioTransfer_agree {W : Nat} (eof : Bool) (d : Dst) (va vb : Vec W) :
    StepResult.Agree (ioTransfer eof d va vb s) (ioTransfer eof d va vb { s with regs := rs }) := by
  unfold ioTransfer
  cases s.cfg.ioModel with
  | refuse => rfl
  | opaqueEvents => exact completeWrite_agree (s := { s with ioLog := s.ioLog ++ [ioEvent d va vb s] }) h eof d (ioInput s)

/-- IO in the R-form answers alike. -/
theorem execIo_agree (ctl : Control) (d : Dst) (a b : Src) :
    StepResult.Agree (execIo ctl d a b s) (execIo ctl d a b { s with regs := rs }) := by
  unfold execIo
  rw [sourceOperand_agree h, sourceOperand_agree h]
  cases sourceOperand s .source1 a with
  | none => rfl
  | some va =>
    cases sourceOperand s .source0 b with
    | none => rfl
    | some vb => exact ioTransfer_agree h ctl.eof d va vb

/-- Every instruction answers alike. -/
theorem exec_agree (i : Instr) : StepResult.Agree (exec i s) (exec i { s with regs := rs }) := by
  cases i using Instr.byForm with
  | nop eof => exact retire_agree h ..
  | rForm op ctl d a b => simp only [exec_ofRForm]; exact rForm_agree h ..
  | iForm op ctl d imm => simp only [exec_ofIForm]; exact iForm_agree h ..
  | branch op ty ctl t a b => simp only [exec_ofBranch]; exact branchForm_agree h ..
  | io ctl d a b => exact execIo_agree h ctl d a b
  | ioI ctl d imm => exact ioTransfer_agree h ctl.eof d _ _
  | rsvr2 w => rfl

end Replaced

/-- The fetch and the decoder look at no register (R130 steps 1 and 2). -/
theorem fetchDecode_regs (s : State) (rs : List Reg) : fetchDecode { s with regs := rs } = fetchDecode s := rfl

end Sys2Proof.Machine
end

section
/-! PROOFS. The statement about what the mark "unwritten" hides. -/

namespace Sys2Proof.Proofs

open Sys2Proof Sys2Proof.Machine

/-- Settles O50: both states fetch the same instruction, and every instruction answers alike in both. -/
theorem unwrittenValuesAreInvisible : Obligations.UnwrittenValuesAreInvisible := by
  unfold Obligations.UnwrittenValuesAreInvisible
  rintro s t ⟨hregs, ht⟩
  rw [ht]
  unfold step
  rw [fetchDecode_regs s t.regs]
  cases fetchDecode s with
  | instruction i => exact exec_agree hregs i
  | fault r => rfl
  | refused r => rfl

end Sys2Proof.Proofs
end

section
/-! SUPPORT. The opcode table, the constraints of the fields, the bytes of an image and the instruction of a T-ASM statement
(30_encoding.md R101 to R110, R122; 20_memory.md R54). -/

namespace Sys2Proof

/-! ## The opcode table (R110) -/

/-- The row of an R-form: mask and match (R75, R76). -/
theorem opcodeRow_ofRForm (op : AluOp) (ctl : Control) (d : Dst) (a b : Src) :
    (opcodeRow (.ofRForm op ctl d a b)).bitsMask = 0xFBFF000000000000 ∧
      (opcodeRow (.ofRForm op ctl d a b)).bitsMatch = packWord 0 0 0 0 0 0 (opcodeOf op) 0 0 0 0 0 := by
  cases op <;> exact ⟨rfl, rfl⟩

/-- The row of an I-form: mask and match (R75, R76). -/
theorem opcodeRow_ofIForm (op : AluOp) (ctl : Control) (d : Dst) (imm : Word) :
    (opcodeRow (.ofIForm op ctl d imm)).bitsMask = 0xFBFFC00300000000 ∧
      (opcodeRow (.ofIForm op ctl d imm)).bitsMatch = packWord 1 0 0 0 0 0 (opcodeOf op) 4 0 0 0 0 := by
  cases op <;> exact ⟨rfl, rfl⟩

/-- The row of a branch: mask and match (R81). -/
theorem opcodeRow_ofBranch (op : AluOp) (ty : BranchType) (ctl : Control) (t : BitVec 8) (a b : Src) :
    (opcodeRow (.ofBranch op ty ctl t a b)).bitsMask = 0xFBFF9C0000000000 ∧
      (opcodeRow (.ofBranch op ty ctl t a b)).bitsMatch = packWord 0 0 0 1 (bopOf ty) 0 (opcodeOf op) 0 0 0 0 0 := by
  cases op <;> cases ty <;> exact ⟨rfl, rfl⟩

/-- The word of a well-formed instruction with SCOP/LOP = 0 selects the instruction's row. -/
theorem selects_encode (i : Instr) (hwf : i.wellFormed = true) (hscop : i.scop = 0) :
    (opcodeRow i).selects (encode i) = true := by
  cases i using Instr.byForm with
  | nop eof => exact Laws.RowMatch.nop eof hwf hscop
  | rForm op ctl d a b =>
    obtain ⟨hmask, hmatch⟩ := opcodeRow_ofRForm op ctl d a b
    rw [scop_ofRForm] at hscop
    rw [OpcodeRow.selects, hmask, hmatch, encode_ofRForm, Laws.RowMatch.rForm _ _ _ _ _ hscop, beq_self_eq_true]
  | iForm op ctl d imm =>
    obtain ⟨hmask, hmatch⟩ := opcodeRow_ofIForm op ctl d imm
    rw [scop_ofIForm] at hscop
    rw [OpcodeRow.selects, hmask, hmatch, encode_ofIForm, Laws.RowMatch.iForm _ _ _ _ hscop, beq_self_eq_true]
  | branch op ty ctl t a b =>
    obtain ⟨hmask, hmatch⟩ := opcodeRow_ofBranch op ty ctl t a b
    rw [scop_ofBranch] at hscop
    rw [OpcodeRow.selects, hmask, hmatch, encode_ofBranch, Laws.RowMatch.branch _ _ _ _ _ _ hscop, beq_self_eq_true]
  | io ctl d a b => exact Laws.RowMatch.io ctl d a b hwf hscop
  | ioI ctl d imm => exact Laws.RowMatch.ioI ctl d imm hwf hscop
  | rsvr2 w => exact Laws.RowMatch.rsvr2 w hwf hscop

/-- Every instruction's row is in the table. -/
theorem opcodeRow_mem (i : Instr) : opcodeRow i ∈ opcodeTable := by
  simp only [opcodeTable, List.mem_append, or_assoc]
  cases i using Instr.byForm with
  | nop | io | ioI => exact .inl (by simp [opcodeRow, opcodeRowsPlain])
  | rForm op | iForm op => exact .inl (by cases op <;> simp [Instr.ofRForm, Instr.ofIForm, opcodeRow, opcodeRowsPlain])
  | branch op ty =>
    cases op with
    | add => exact .inr (.inl (by cases ty <;> simp [Instr.ofBranch, opcodeRow, opcodeRowsBranchAdd]))
    | div => exact .inr (.inr (.inl (by cases ty <;> simp [Instr.ofBranch, opcodeRow, opcodeRowsBranchDiv])))
    | mul => exact .inr (.inr (.inr (.inl (by cases ty <;> simp [Instr.ofBranch, opcodeRow, opcodeRowsBranchMul]))))
    | sqrt => exact .inr (.inr (.inr (.inr (.inl (by cases ty <;> simp [Instr.ofBranch, opcodeRow, opcodeRowsBranchSqrt])))))
    | logic => exact .inr (.inr (.inr (.inr (.inr (.inl (by cases ty <;> simp [Instr.ofBranch, opcodeRow, opcodeRowsBranchLogic]))))))
  | rsvr2 w => exact .inr (.inr (.inr (.inr (.inr (.inr (by simp [opcodeRow, opcodeRowsReserved]))))))

/-- Two rows of the table differ in a bit that both masks look at. -/
theorem opcodeTable_pairwise :
    opcodeTable.Pairwise fun r r' => r.bitsMatch &&& r'.bitsMask ≠ r'.bitsMatch &&& r.bitsMask := by
  decide +kernel

/-- No word selects two rows of the table. -/
theorem eq_of_selects {w : Insn} {r r' : OpcodeRow} (hr : r ∈ opcodeTable) (hr' : r' ∈ opcodeTable) (h : r.selects w = true)
    (h' : r'.selects w = true) : r = r' := by
  have : Std.Symm fun r r' : OpcodeRow => r.bitsMatch &&& r'.bitsMask ≠ r'.bitsMatch &&& r.bitsMask := ⟨fun _ _ => Ne.symm⟩
  by_contra hne
  refine opcodeTable_pairwise.forall hr hr' hne ?_
  simp only [OpcodeRow.selects, beq_iff_eq] at h h'
  rw [← h, ← h', BitVec.and_assoc, BitVec.and_comm r.bitsMask, ← BitVec.and_assoc]

/-! ## The constraints of the fields (R101 to R107) -/

/-- The decoder reads a selection only from codes other than 11 (R104). -/
theorem ne_three_of_swizzleOf {c : Vec3 (BitVec 2)} {sel : Vec3 Chan} (h : swizzleOf c = some sel) (lane : Chan) :
    c.get lane ≠ 3 := by
  obtain ⟨cx, cy, cz⟩ := c
  have key : ∀ cx cy cz : BitVec 2, swizzleOf ⟨cx, cy, cz⟩ ≠ none → cx ≠ 3 ∧ cy ≠ 3 ∧ cz ≠ 3 := by decide
  obtain ⟨hx, hy, hz⟩ := key cx cy cz (by simp [h])
  cases lane with
  | x => exact hx
  | y => exact hy
  | z => exact hz

/-- The codes of sources that the decoder reads (R104). -/
theorem swizzle_ne_three_of_decode {w : Insn} {a b : Src} (ha : decodeSrc1 w = some a) (hb : decodeSrc0 w = some b) (lane : Chan) :
    (fieldSwz1 w).get lane ≠ 3 ∧ (fieldSwz0 w).get lane ≠ 3 := by
  obtain ⟨_, hsel1, -⟩ := Option.map_eq_some_iff.1 ha
  obtain ⟨_, hsel0, -⟩ := Option.map_eq_some_iff.1 hb
  exact ⟨ne_three_of_swizzleOf hsel1 lane, ne_three_of_swizzleOf hsel0 lane⟩

/-- Every field of the NOP word but EOF is 0 (R94). -/
theorem fields_of_canonical {w : Insn} (h : w &&& 0xFBFFFFFFFFFFFFFF = 0) :
    fieldImm w = false ∧ ∀ lane : Chan, (fieldSwz1 w).get lane ≠ 3 ∧ (fieldSwz0 w).get lane ≠ 3 := by
  rw [← encode_nop_of_canonical h]
  refine ⟨by simp [encode], fun lane => ?_⟩
  cases fieldEof w <;> cases lane <;> decide

section Constraints

variable {cfg : Config} {w : Insn} {i : Instr} (h : FieldsOf cfg w i)
include h

/-- Without BBIT, BOP is 0 (R105). -/
theorem bop_eq_zero_of_fieldsOf (h7 : fieldOpcode w ≠ 7) (hb : fieldBbit w = false) : fieldBop w = 0 := by
  cases h with
  | nop | rForm | iForm | io | ioI => assumption
  | branch op ty hopcode hbbit => simp [hbbit] at hb
  | rsvr2 hopcode => exact absurd hopcode h7

/-- Under OPCODE = 000 every bit but EOF is 0 (R107). -/
theorem canonical_of_fieldsOf (h0 : fieldOpcode w = 0) : w &&& 0xFBFFFFFFFFFFFFFF = 0 := by
  cases h with
  | nop hopcode hbbit hbop hcanonical => exact hcanonical
  | rForm op hopcode | iForm op hopcode | branch op _ hopcode => exact absurd (hopcode.symm.trans h0) (opcodeOf_ne_zero op)
  | io hopcode | ioI hopcode | rsvr2 hopcode => simp [hopcode] at h0

/-- With BBIT the word has the fields of a branch (R105, R92). -/
theorem branch_of_fieldsOf (h7 : fieldOpcode w ≠ 7) (hb : fieldBbit w = true) :
    fieldImm w = false ∧ fieldBop w ≠ 7 ∧ fieldWe w = ⟨false, false, false⟩ ∧ fieldOpcode w ≠ 0 ∧ fieldOpcode w ≠ 6 ∧
      (cfg.branchModeBit47Ignored = false → w.getLsbD 47 = false) := by
  cases h with
  | branch op ty hopcode hbbit hbop himm ha hb hfields =>
    obtain ⟨hwe, hbit47⟩ := branchWordRefusal_eq_none.1 hfields
    exact ⟨himm, hbop ▸ bopOf_ne_seven ty, hwe, hopcode ▸ opcodeOf_ne_zero op, hopcode ▸ opcodeOf_ne_six op, hbit47⟩
  | rsvr2 hopcode => exact absurd hopcode h7
  | nop _ hbbit | rForm _ _ hbbit | iForm _ _ hbbit | io _ hbbit | ioI _ hbbit => simp [hbbit] at hb

/-- With IMM the word has the fields of an immediate (R106). -/
theorem immediate_of_fieldsOf (h7 : fieldOpcode w ≠ 7) (hi : fieldImm w = true) :
    (fieldMode w = 4 ∨ fieldMode w = 5) ∧ (fieldSign1 w).x = false ∧ (fieldSign1 w).y = false := by
  cases h with
  | iForm _ _ _ _ _ hfields | ioI _ _ _ _ hfields => exact (immFieldRefusal_eq_none.1 hfields).2
  | nop _ _ _ hcanonical => simp [(fields_of_canonical hcanonical).1] at hi
  | rForm _ _ _ _ himm | branch _ _ _ _ _ himm | io _ _ _ himm => simp [himm] at hi
  | rsvr2 hopcode => exact absurd hopcode h7

/-- Without IMM no swizzle code is 11 (R104). -/
theorem swizzle_of_fieldsOf (h7 : fieldOpcode w ≠ 7) (hi : fieldImm w = false) (lane : Chan) :
    (fieldSwz1 w).get lane ≠ 3 ∧ (fieldSwz0 w).get lane ≠ 3 := by
  cases h with
  | nop _ _ _ hcanonical => exact (fields_of_canonical hcanonical).2 lane
  | rForm _ _ _ _ _ ha hb | branch _ _ _ _ _ _ ha hb | io _ _ _ _ ha hb => exact swizzle_ne_three_of_decode ha hb lane
  | iForm _ _ _ _ himm | ioI _ _ _ himm => simp [himm] at hi
  | rsvr2 hopcode => exact absurd hopcode h7

end Constraints

/-! ## Program images (20_memory.md R54) -/

/-- Appending the next lower byte of a word to its upper part gives the next longer upper part. -/
theorem shift_or_byte (w : Insn) (k : Nat) :
    ((w >>> (k + 8)) <<< 8) ||| (w.extractLsb' k 8).setWidth 64 = w >>> k := by
  apply BitVec.eq_of_getLsbD_eq
  intro i hi
  by_cases hlow : i < 8
  · simp [hi, hlow]
  · have hindex : k + 8 + (i - 8) = k + i := by omega
    simp [hi, hlow, hindex]

/-- Eight bytes, the most significant first, give back their word. -/
theorem wordOfBytesMsb_bytes (w : Insn) : wordOfBytesMsb (bytesOfWord .msbFirst w) = w := by
  have htop : (0 : Insn) = w >>> 64 := (BitVec.ushiftRight_eq_zero (by decide)).symm
  simp only [bytesOfWord, wordOfBytesMsb, List.map_cons, List.map_nil, List.foldl_cons, List.foldl_nil, htop]
  rw [shift_or_byte w 56, shift_or_byte w 48, shift_or_byte w 40, shift_or_byte w 32, shift_or_byte w 24, shift_or_byte w 16,
    shift_or_byte w 8, shift_or_byte w 0, BitVec.ushiftRight_zero]

/-- Under each order a word's bytes give back the word. -/
theorem wordOfBytes_bytesOfWord (order : ByteOrder) (w : Insn) : wordOfBytes order (bytesOfWord order w) = w := by
  cases order with
  | msbFirst => exact wordOfBytesMsb_bytes w
  | lsbFirst =>
    calc wordOfBytes .lsbFirst (bytesOfWord .lsbFirst w)
      _ = wordOfBytesMsb (bytesOfWord .msbFirst w).reverse.reverse := rfl
      _ = w := by rw [List.reverse_reverse, wordOfBytesMsb_bytes]

/-- The first eight bytes of an image are its first word. -/
theorem wordsOfImage_append (order : ByteOrder) (w : Insn) (rest : List Byte) :
    wordsOfImage order (bytesOfWord order w ++ rest) = (wordsOfImage order rest).map (w :: ·) := by
  have hcons : wordsOfImage order (bytesOfWord order w ++ rest) =
      (wordsOfImage order rest).map (wordOfBytes order (bytesOfWord order w) :: ·) := by
    cases order <;> rfl
  rw [hcons, wordOfBytes_bytesOfWord]

/-- The image of a list of words gives back the list. -/
theorem wordsOfImage_flatMap (order : ByteOrder) (ws : List Insn) :
    wordsOfImage order (ws.flatMap (bytesOfWord order)) = some ws := by
  induction ws with
  | nil => rfl
  | cons w ws ih => rw [List.flatMap_cons, wordsOfImage_append, ih, Option.map_some]

end Sys2Proof

namespace Sys2Proof.Tasm

/-! ## The instruction of a statement (30_encoding.md R122) -/

/-- What a transcriber gives: an instruction that stands for a word in every configuration, with EOF = 0 and SCOP/LOP = 0. -/
structure Plain (i : Instr) : Prop where
  wellFormed : i.wellFormed = true
  eof : i.eof = false
  scop : i.scop = 0

theorem plain_of_plainInstr {op : OpcodeClass} {d : Dst} {o : ReadOperands} {i : Instr} (h : plainInstr op d o = .ok i) :
    Plain i := by
  unfold plainInstr at h
  split at h
  case h_6 => cases h
  all_goals obtain rfl := Except.ok.inj h
  case h_1 | h_4 | h_5 => exact ⟨rfl, rfl, rfl⟩
  case h_2 | h_3 => constructor <;> simp

theorem plain_of_branchInstr {op : OpcodeClass} {ty : BranchType} {t : BitVec 8} {o : ReadOperands} {i : Instr}
    (h : branchInstr op ty t o = .ok i) : Plain i := by
  unfold branchInstr at h
  split at h
  case h_1 =>
    obtain rfl := Except.ok.inj h
    constructor <;> simp
  all_goals cases h

/-- The instruction of a statement comes from its operation: no branch (`plainInstr`), or a branch (`branchInstr`). -/
theorem instrOf_eq_ok {labels : List (String × Nat)} {st : Statement} {i : Instr} (h : instrOf labels st = .ok i) :
    ∃ op o, operationOf st.mnemonic = .ok op ∧
      ((∃ d, plainInstr op d o = .ok i) ∨ ∃ ty t, branchInstr op ty t o = .ok i) := by
  unfold instrOf at h
  split at h
  · cases h
  · split at h
    · cases h
    · cases h
    · rename_i op o hop _
      refine ⟨op, o, hop, ?_⟩
      split at h
      · split at h
        · cases h
        · exact .inl ⟨_, h⟩
      · split at h
        · cases h
        · exact .inr ⟨_, _, h⟩

theorem plain_of_instrOf {labels : List (String × Nat)} {st : Statement} {i : Instr} (h : instrOf labels st = .ok i) :
    Plain i := by
  obtain ⟨op, o, -, ⟨d, hplain⟩ | ⟨ty, t, hbranch⟩⟩ := instrOf_eq_ok h
  · exact plain_of_plainInstr hplain
  · exact plain_of_branchInstr hbranch

/-- A NOP statement stands for the NOP (R94). -/
theorem eq_nop_of_instrOf {labels : List (String × Nat)} {st : Statement} {i : Instr} (h : instrOf labels st = .ok i)
    (hnop : st.mnemonic = "NOP") : i = .nop false := by
  obtain ⟨op, o, hop, hinstr⟩ := instrOf_eq_ok h
  rw [hnop] at hop
  obtain rfl : OpcodeClass.nop = op := Except.ok.inj hop
  rcases hinstr with ⟨d, hplain⟩ | ⟨ty, t, hbranch⟩
  · exact (Except.ok.inj hplain).symm
  · cases hbranch

/-- The word of a statement is that of its instruction (R122). -/
theorem wordOf_eq_ok {labels : List (String × Nat)} {st : Statement} {w : Insn} (h : wordOf labels st = .ok w) :
    ∃ i, instrOf labels st = .ok i ∧ w = encode i := by
  unfold wordOf at h
  split at h
  · cases h
  · rename_i i hi
    exact ⟨i, hi, (Except.ok.inj h).symm⟩

/-- What a transcriber gives decodes under every configuration. -/
theorem Plain.decode_encode {i : Instr} (h : Plain i) (cfg : Config) : decode cfg (encode i) = .ok i :=
  decode_of_fieldsOf (headerAdmitted_encode h.wellFormed ((admittedBy_iff cfg i).2 ⟨fun _ => h.scop, fun _ => h.eof⟩))
    (fieldsOf_encode cfg i h.wellFormed)

end Sys2Proof.Tasm
end

section
/-! PROOFS. The statements about the opcode table, the constraints of the fields, worked words, images and T-ASM. -/

namespace Sys2Proof.Proofs

open Sys2Proof Sys2Proof.Machine

/-- Settles O3: the word is the encoding of its instruction, which selects its row; and no word selects two. -/
theorem admittedWordSelectsItsOpcodeRowOnly : Obligations.AdmittedWordSelectsItsOpcodeRowOnly := by
  unfold Obligations.AdmittedWordSelectsItsOpcodeRowOnly
  intro cfg w i hignored hscop hdecode
  obtain ⟨hword, hwf, -⟩ := encodeDecodeRoundTrip cfg w i hignored hdecode
  obtain ⟨-, hsame⟩ := eof_scop_of_fieldsOf (fieldsOf_of_decode hdecode).2
  have hiscop : i.scop = 0 := hsame.trans hscop
  have hselects : (opcodeRow i).selects w = true := hword ▸ selects_encode i hwf hiscop
  exact ⟨opcodeRow_mem i, hselects, fun r hr hsel => eq_of_selects hr (opcodeRow_mem i) hsel hselects⟩

/-- Settles O4, constraint by constraint, from the header and the fields of an admitted word. -/
theorem admittedWordsObeyTheFieldConstraints : Obligations.AdmittedWordsObeyTheFieldConstraints := by
  unfold Obligations.AdmittedWordsObeyTheFieldConstraints
  intro cfg w i hdecode
  obtain ⟨hheader, hfields⟩ := fieldsOf_of_decode hdecode
  exact ⟨hheader.reserved, hheader.scop, hheader.eof, fun h7 => ⟨bop_eq_zero_of_fieldsOf hfields h7, canonical_of_fieldsOf hfields,
    branch_of_fieldsOf hfields h7, immediate_of_fieldsOf hfields h7, swizzle_of_fieldsOf hfields h7⟩⟩

/-- Settles O5: six closed words, on which the decoder is run. -/
theorem workedEncodingsDecode : Obligations.WorkedEncodingsDecode := by
  unfold Obligations.WorkedEncodingsDecode
  decide

/-- Settles O6: twelve closed words, on which the decoder is run. -/
theorem derivedEncodingsDecode : Obligations.DerivedEncodingsDecode := by
  unfold Obligations.DerivedEncodingsDecode
  decide

/-- Settles O52: word by word; the first byte is a slice of the word. -/
theorem imageBytesGiveBackTheWords : Obligations.ImageBytesGiveBackTheWords := by
  unfold Obligations.ImageBytesGiveBackTheWords
  exact fun order ws => ⟨wordsOfImage_flatMap order ws, fun w => ⟨rfl, rfl⟩⟩

/-- Settles O53: five closed texts, on which the assembler is run. -/
theorem tableTwoStatementsAssemble : Obligations.TableTwoStatementsAssemble := by
  unfold Obligations.TableTwoStatementsAssemble
  decide +kernel

/-- Settles O54: the word is the encoding of the statement's instruction, which every configuration admits. -/
theorem transcribedWordsDecode : Obligations.TranscribedWordsDecode := by
  unfold Obligations.TranscribedWordsDecode
  intro labels st w h
  obtain ⟨i, hi, rfl⟩ := Tasm.wordOf_eq_ok h
  have hplain := Tasm.plain_of_instrOf hi
  obtain ⟨-, heof, -⟩ := header_fields_encode i hplain.wellFormed
  refine ⟨⟨i, hi, hplain.decode_encode⟩, heof.trans hplain.eof, fun hnop => ?_⟩
  rw [Tasm.eq_nop_of_instrOf hi hnop]
  rfl

end Sys2Proof.Proofs
end

section
/-! SUPPORT. When a step runs an instruction and when it does not, runs that do not move, and the launch (40_operand_datapath.md R130;
60_exceptions.md R242, R243; 70_reset_and_hazards.md R270 to R277). -/

namespace Sys2Proof.Machine

/-! ## The fetch, case by case (R130 steps 1 and 2) -/

theorem ifetch_of_lt {s : State} {a : Nat} (h : a < s.cfg.imemSize) : ifetch s a = s.imem.read a := if_pos h

/-- Nothing is fetched at or above IMEM_SIZE, nor where nothing is loaded (10_state.md R27). -/
theorem ifetch_eq_none {s : State} {a : Nat} (h : s.cfg.imemSize ≤ a ∨ s.imem.read a = none) : ifetch s a = none := by
  unfold ifetch
  split
  · rename_i hlt
    exact h.resolve_left (Nat.not_le.2 hlt)
  · rfl

/-- A step of a refused machine is refused, for the reason it has (R243). -/
theorem step_of_refused {s : State} {r : Refusal} (h : s.refused = some r) : step s = .refused r := by
  simp [step, fetchDecode, h]

section NotRefused

variable {s : State} (hrefused : s.refused = none)
include hrefused

/-- A step of a halted machine is a fault (R276, log 14). -/
theorem step_of_halted (h : s.halted = true) : step s = .fault .runEnded := by
  simp [step, fetchDecode, hrefused, h]

variable (hhalted : s.halted = false)
include hhalted

/-- A step where nothing is fetched is a fault (R277, log 15). -/
theorem step_of_not_loaded (h : ifetch s s.pc = none) : step s = .fault .notLoaded := by
  simp [step, fetchDecode, hrefused, hhalted, h]

/-- A step at a word that decodes is the instruction's meaning (R130). -/
theorem step_of_decode {w : Insn} {i : Instr} (hw : ifetch s s.pc = some w) (hi : decode s.cfg w = .ok i) : step s = exec i s := by
  simp [step, fetchDecode, hrefused, hhalted, hw, hi]

/-- A step at a word that does not decode is refused, for the decoder's reason (R109). -/
theorem step_of_decode_error {w : Insn} {r : DecodeRefusal} (hw : ifetch s s.pc = some w) (hr : decode s.cfg w = .error r) :
    step s = .refused (.undecodable r) := by
  simp [step, fetchDecode, hrefused, hhalted, hw, hr]

end NotRefused

/-- A word with OPCODE 111 that decodes is RSVR2 (R100). -/
theorem eq_rsvr2_of_fieldsOf {cfg : Config} {w : Insn} {i : Instr} (h : FieldsOf cfg w i) (h7 : fieldOpcode w = 7) :
    i = .rsvr2 w := by
  cases h with
  | rsvr2 => rfl
  | nop hopcode | io hopcode | ioI hopcode => simp [hopcode] at h7
  | rForm op hopcode | iForm op hopcode | branch op _ hopcode => exact absurd (hopcode.symm.trans h7) (opcodeOf_ne_seven op)

/-- A placed word is where the next step fetches, where IMEM_SIZE is not 0. -/
theorem ifetch_placeWord {s : State} (w : Insn) (h : 0 < s.cfg.imemSize) : ifetch (placeWord s w) (placeWord s w).pc = some w := by
  have hslot : fetchSlot s < s.cfg.imemSize := by
    unfold fetchSlot
    split
    · assumption
    · exact h
  rw [ifetch_of_lt (by simpa using hslot), placeWord_imem, Memory_read_write, placeWord_pc, if_pos rfl]

/-! ## Runs that do not move (R243, R276) -/

theorem advanceRun_of_refused_step {s : State} {r : Refusal} (h : step s = .refused r) : advanceRun s = markRefused r s := by
  simp [advanceRun, h]

/-- Marking a machine again for the reason it has changes nothing. -/
theorem markRefused_of_refused {s : State} {r : Refusal} (h : s.refused = some r) : markRefused r s = s := by
  rw [markRefused, ← h]

theorem runFor_of_advanceRun_eq {s : State} (h : advanceRun s = s) (n : Nat) : runFor n s = s := by
  induction n with
  | zero => rfl
  | succ n ih => rw [runFor, h, ih]

/-- A run from a refused state stays there (R243). -/
theorem runFor_of_refused {s : State} {r : Refusal} (h : s.refused = some r) (n : Nat) : runFor n s = s :=
  runFor_of_advanceRun_eq ((advanceRun_of_refused_step (step_of_refused h)).trans (markRefused_of_refused h)) n

/-- A run from a halted state stays there (R276). -/
theorem runFor_of_halted {s : State} (hhalted : s.halted = true) (hrefused : s.refused = none) (n : Nat) : runFor n s = s :=
  runFor_of_advanceRun_eq (by rw [advanceRun, step_of_halted hrefused hhalted]) n

/-! ## Register files at reset and launch (R270, R271) -/

theorem Reg_unwritten_get (c : Chan) : Reg.unwritten.get c = Channel.unwritten := Vec3_all_get ..

/-- The memory of a launch: the k-th word at address k (R271). -/
theorem read_loadFrom (a : Nat) (ws : List Insn) (k : Nat) :
    (loadFrom a ws).read k = if a ≤ k then ws[k - a]? else none := by
  induction ws generalizing a with
  | nil => simp [loadFrom, Memory.read]
  | cons w ws ih =>
    rw [loadFrom, Memory.read, ih]
    rcases Nat.lt_trichotomy a k with hlt | rfl | hgt
    · obtain ⟨j, rfl⟩ : ∃ j, k = a + 1 + j := ⟨k - (a + 1), by omega⟩
      have hindex : a + 1 + j - a = j + 1 := by omega
      simp [hlt.ne, hlt.le, hindex]
    · simp
    · simp [hgt.ne', Nat.not_le.2 hgt, Nat.not_le.2 (Nat.lt_succ_of_lt hgt)]

/-- One channel of one register of a register file. -/
def fileChannel (regs : List Reg) (i : Nat) (c : Chan) : Option Channel := regs[i]?.map (·.get c)

theorem channel_eq_fileChannel (s : State) : s.channel = fileChannel s.regs := rfl

/-- A register file with one channel given, channel by channel (R271). -/
theorem fileChannel_set {regs : List Reg} {i : Nat} {r : Reg} (hr : regs[i]? = some r) (c : Chan) (v j : Nat) (c' : Chan) :
    fileChannel (regs.set i (setChannel r c v)) j c' = if j = i ∧ c' = c then some ⟨v, true⟩ else fileChannel regs j c' := by
  obtain ⟨hlt, hget⟩ := List.getElem?_eq_some_iff.1 hr
  by_cases hj : j = i
  · subst hj
    by_cases hc : c' = c
    · simp [fileChannel, hlt, setChannel_get, hc]
    · simp [fileChannel, hlt, setChannel_get, hc, hget]
  · simp [fileChannel, hj, Ne.symm hj]

/-- Everything about one channel of the initial contents that is admitted: its register is there, its value has W bits. -/
theorem setInitial_cons_eq_some {W i v : Nat} {c : Chan} {rest : List (Nat × Chan × Nat)} {regs regs' : List Reg}
    (h : setInitial W ((i, c, v) :: rest) regs = some regs') :
    ∃ r, regs[i]? = some r ∧ v < 2 ^ W ∧ setInitial W rest (regs.set i (setChannel r c v)) = some regs' := by
  rw [setInitial] at h
  split at h
  · cases h
  · rename_i r hr
    split at h
    · rename_i hv
      exact ⟨r, hr, hv, h⟩
    · cases h

/-- The initial contents are admitted exactly when they name registers that are there and values of W bits (log 31). -/
theorem setInitial_isSome_iff (W : Nat) (l : List (Nat × Chan × Nat)) (regs : List Reg) :
    (∃ regs', setInitial W l regs = some regs') ↔ ∀ e ∈ l, e.1 < regs.length ∧ e.2.2 < 2 ^ W := by
  induction l generalizing regs with
  | nil => simp [setInitial]
  | cons e rest ih =>
    obtain ⟨i, c, v⟩ := e
    rw [List.forall_mem_cons]
    constructor
    · rintro ⟨regs', h⟩
      obtain ⟨r, hr, hv, hrest⟩ := setInitial_cons_eq_some h
      obtain ⟨hlt, -⟩ := List.getElem?_eq_some_iff.1 hr
      exact ⟨⟨hlt, hv⟩, by simpa using (ih _).1 ⟨regs', hrest⟩⟩
    · rintro ⟨⟨hlt, hv⟩, hrest⟩
      rw [setInitial, List.getElem?_eq_getElem hlt]
      simp only [if_pos hv]
      exact (ih _).2 (by simpa using hrest)

/-- The initial contents change no number of registers, and a channel they do not name stays as it was. -/
theorem setInitial_frame {W : Nat} {l : List (Nat × Chan × Nat)} {regs regs' : List Reg} (h : setInitial W l regs = some regs') :
    regs'.length = regs.length ∧
      ∀ j c, (∀ e ∈ l, ¬ (e.1 = j ∧ e.2.1 = c)) → fileChannel regs' j c = fileChannel regs j c := by
  induction l generalizing regs with
  | nil =>
    obtain rfl := Option.some.inj h
    exact ⟨rfl, fun _ _ _ => rfl⟩
  | cons e rest ih =>
    obtain ⟨i, c, v⟩ := e
    obtain ⟨r, hr, -, hrest⟩ := setInitial_cons_eq_some h
    obtain ⟨hlength, hsame⟩ := ih hrest
    refine ⟨hlength.trans List.length_set, fun j c' hnot => ?_⟩
    obtain ⟨hhead, htail⟩ := List.forall_mem_cons.1 hnot
    rw [hsame j c' htail, fileChannel_set hr, if_neg fun ⟨hj, hc⟩ => hhead ⟨hj.symm, hc.symm⟩]

/-- The last value that the initial contents give a channel is the one it holds, and it counts as written (R271, log 31). -/
theorem setInitial_last {W i v : Nat} {c : Chan} {before after : List (Nat × Chan × Nat)} {regs regs' : List Reg}
    (h : setInitial W (before ++ (i, c, v) :: after) regs = some regs') (hlast : ∀ e ∈ after, ¬ (e.1 = i ∧ e.2.1 = c)) :
    fileChannel regs' i c = some ⟨v, true⟩ := by
  induction before generalizing regs with
  | nil =>
    obtain ⟨r, hr, -, hrest⟩ := setInitial_cons_eq_some h
    obtain ⟨-, hsame⟩ := setInitial_frame hrest
    rw [hsame i c hlast, fileChannel_set hr, if_pos ⟨rfl, rfl⟩]
  | cons e before ih =>
    obtain ⟨r, -, -, hrest⟩ := setInitial_cons_eq_some (c := e.2.1) h
    exact ih hrest

/-- The initial contents keep every value below 2^W. -/
theorem setInitial_values {W : Nat} {l : List (Nat × Chan × Nat)} {regs regs' : List Reg} (h : setInitial W l regs = some regs')
    (hvalues : ∀ j c u, fileChannel regs j c = some u → u.value < 2 ^ W) :
    ∀ j c u, fileChannel regs' j c = some u → u.value < 2 ^ W := by
  induction l generalizing regs with
  | nil =>
    obtain rfl := Option.some.inj h
    exact hvalues
  | cons e rest ih =>
    obtain ⟨i, c, v⟩ := e
    obtain ⟨r, hr, hv, hrest⟩ := setInitial_cons_eq_some h
    refine ih hrest fun j c' u hu => ?_
    rw [fileChannel_set hr] at hu
    split at hu
    · obtain rfl := Option.some.inj hu
      exact hv
    · exact hvalues j c' u hu

/-- Every channel of the register file at reset is unwritten. -/
theorem fileChannel_replicate {n j : Nat} {c : Chan} {u : Channel} (h : fileChannel (List.replicate n Reg.unwritten) j c = some u) :
    u = Channel.unwritten := by
  obtain ⟨r, hr, rfl⟩ := Option.map_eq_some_iff.1 h
  obtain rfl := (List.mem_replicate.1 (List.mem_of_getElem? hr)).2
  exact Reg_unwritten_get c

/-- Everything about the state that a launch starts from (R270, R271). -/
theorem launch_eq_some {cfg : Config} {l : Launch} {s : State} (h : launch cfg l = some s) :
    l.program.length ≤ cfg.imemSize ∧ ∃ regs,
      setInitial cfg.width l.initial (List.replicate cfg.regCount Reg.unwritten) = some regs ∧
      s = { cfg := cfg, regs := regs, pc := cfg.entryPc, fo := l.fo, imem := loadFrom 0 l.program, halted := false,
            refused := none, ioLog := [], tick := 0 } := by
  unfold launch at h
  split at h
  · rename_i hlength
    obtain ⟨regs, hregs, hs⟩ := Option.map_eq_some_iff.1 h
    exact ⟨hlength, regs, hregs, hs.symm⟩
  · cases h

/-- When a launch gives a state (log 31). -/
theorem launch_isSome_iff (cfg : Config) (l : Launch) :
    (∃ s, launch cfg l = some s) ↔
      l.program.length ≤ cfg.imemSize ∧ ∀ e ∈ l.initial, e.1 < cfg.regCount ∧ e.2.2 < 2 ^ cfg.width := by
  have hinitial := setInitial_isSome_iff cfg.width l.initial (List.replicate cfg.regCount Reg.unwritten)
  rw [List.length_replicate] at hinitial
  constructor
  · rintro ⟨s, h⟩
    obtain ⟨hlength, regs, hregs, -⟩ := launch_eq_some h
    exact ⟨hlength, hinitial.1 ⟨regs, hregs⟩⟩
  · rintro ⟨hlength, hentries⟩
    obtain ⟨regs, hregs⟩ := hinitial.2 hentries
    exact ⟨_, by rw [launch, if_pos hlength, hregs, Option.map_some]⟩

/-- A launch starts with the invariant, where ENTRY_PC is at most IMEM_SIZE. -/
theorem launch_inv {cfg : Config} {l : Launch} {s : State} (h : launch cfg l = some s) (hentry : cfg.entryPc ≤ cfg.imemSize) :
    s.Inv := by
  obtain ⟨-, regs, hregs, rfl⟩ := launch_eq_some h
  obtain ⟨hlength, -⟩ := setInitial_frame hregs
  constructor
  case memory => exact loadFrom_wf 0 l.program
  case registers => exact hlength.trans List.length_replicate
  case values =>
    refine forall_channel_value_lt_iff.2 (setInitial_values hregs fun j c u hu => ?_)
    obtain rfl := fileChannel_replicate hu
    exact Nat.two_pow_pos cfg.width
  case counter => exact Nat.le_trans hentry (Nat.le_max_left ..)
  case events => exact List.forall_mem_nil _
  case silent => exact fun _ => rfl

/-- The reset state is the launch of an empty program with FO = 0 and no initial contents (R270, log 7). -/
theorem launch_empty : launch Config.standard ⟨[], 0, []⟩ = some State.reset := rfl

end Sys2Proof.Machine
end

section
/-! PROOFS. The statements about a step's fetch, runs that do not move, reset and the launch. -/

namespace Sys2Proof.Proofs

open Sys2Proof Sys2Proof.Machine

/-- Settles O26: RSVR2 is refused in every state, and a word with OPCODE 111 decodes to nothing else. -/
theorem reservedOpcodeIsRefused : Obligations.ReservedOpcodeIsRefused := by
  unfold Obligations.ReservedOpcodeIsRefused
  refine ⟨exec_rsvr2, fun s w hrefused hhalted hw h7 => ⟨?_, fun hreserved hscop heof => ?_⟩⟩
  · cases hi : decode s.cfg w with
    | error r => exact ⟨_, step_of_decode_error hrefused hhalted hw hi⟩
    | ok i =>
      obtain ⟨-, hfields⟩ := fieldsOf_of_decode hi
      obtain rfl := eq_rsvr2_of_fieldsOf hfields h7
      exact ⟨_, step_of_decode hrefused hhalted hw hi⟩
  · have hheader : HeaderAdmitted s.cfg w :=
      ⟨hreserved, fun ht => hscop.resolve_right (by simp [ht]), fun hm => heof.resolve_right (by simp [hm])⟩
    exact step_of_decode hrefused hhalted hw (decode_of_fieldsOf hheader (.rsvr2 h7))

/-- Settles O41: the word at `pc` is fetched, and decodes. -/
theorem stepRunsTheDecodedInstruction : Obligations.StepRunsTheDecodedInstruction := by
  unfold Obligations.StepRunsTheDecodedInstruction
  intro s w i hrefused hhalted hpc hw hi
  exact step_of_decode hrefused hhalted ((ifetch_of_lt hpc).trans hw) hi

/-- Settles O42: the placed word is fetched, and loading it changes one address. -/
theorem placedWordRunsNext : Obligations.PlacedWordRunsNext := by
  unfold Obligations.PlacedWordRunsNext
  intro s nbits w i hsize hi
  rw [withFetchWord_eq_placeWord]
  refine ⟨step_of_decode (placeWord_refused ..) (placeWord_halted ..) (ifetch_placeWord _ hsize) hi, fun a => ?_⟩
  rw [placeWord_imem, Memory_read_write, placeWord_pc]

/-- Settles O48: the two faults of the fetch. -/
theorem noStepAfterTheRunOrOutsideTheProgram : Obligations.NoStepAfterTheRunOrOutsideTheProgram := by
  unfold Obligations.NoStepAfterTheRunOrOutsideTheProgram
  exact fun s hrefused => ⟨step_of_halted hrefused, fun hhalted h => step_of_not_loaded hrefused hhalted (ifetch_eq_none h)⟩

/-- Settles O49: a refused step marks the state, and a marked or halted state is a fixed point of the run. -/
theorem refusedStateStaysAndChangesNothing : Obligations.RefusedStateStaysAndChangesNothing := by
  unfold Obligations.RefusedStateStaysAndChangesNothing
  refine fun s r n => ⟨fun hstep => ?_, fun h => ?_, fun hrefused => by simp [State.isFinal, hrefused]⟩
  · rw [runFor, advanceRun_of_refused_step hstep]
    exact runFor_of_refused rfl n
  · rcases h with hrefused | ⟨hhalted, hrefused⟩
    · exact runFor_of_refused hrefused n
    · exact runFor_of_halted hhalted hrefused n

/-- Settles O44: the reset state is an empty launch, and its registers are unwritten. -/
theorem resetHasTheInvariant : Obligations.ResetHasTheInvariant := by
  unfold Obligations.ResetHasTheInvariant
  refine ⟨launch_inv launch_empty (by decide), rfl, rfl, rfl, fun _ => rfl, rfl, List.length_replicate, fun r hr c => ?_⟩
  obtain rfl := (List.mem_replicate.1 hr).2
  rw [Reg_unwritten_get]
  rfl

/-- Settles O51: when the launch gives a state, and its registers by induction on the initial contents. -/
theorem launchStartsTheLoadedProgram : Obligations.LaunchStartsTheLoadedProgram := by
  unfold Obligations.LaunchStartsTheLoadedProgram
  refine fun cfg l => ⟨launch_isSome_iff cfg l, fun s h => ?_⟩
  have hinv := launch_inv h
  obtain ⟨-, regs, hregs, rfl⟩ := launch_eq_some h
  obtain ⟨hlength, hframe⟩ := setInitial_frame hregs
  refine ⟨fun a => ?_, rfl, rfl, rfl, hlength.trans List.length_replicate, rfl, rfl, rfl, hinv,
    fun before after i c v hl hlast => ?_, fun i c hnot u hu => ?_⟩
  · simpa using read_loadFrom 0 l.program a
  · rw [channel_eq_fileChannel]
    exact setInitial_last (hl ▸ hregs) hlast
  · rw [channel_eq_fileChannel] at hu
    obtain rfl := fileChannel_replicate ((hframe i c hnot).symm.trans hu)
    rfl

end Sys2Proof.Proofs
end

section
/-! SUPPORT. What the operations compute in one lane: two's complement, the product, the quotient and the square root
(41_arithmetic.md R161 to R173). -/

namespace Sys2Proof.Machine

/-- ADD is the sum of W-bit words (R161, R169). -/
theorem addLane_eq_add {W : Nat} (a b : BitVec W) : addLane a b = a + b := by
  apply BitVec.eq_of_toNat_eq
  simp [addLane]

/-- The default MUL_FN is the product of W-bit words (R165, R171). -/
theorem mulDefault_eq_mul {W : Nat} (a b : BitVec W) : mulDefault a b = a * b := by
  apply BitVec.eq_of_toNat_eq
  simp [mulDefault]

/-- The default DIV_FN is the signed division of W-bit words (R163, R172). -/
theorem divDefault_eq_sdiv {W : Nat} (a b : BitVec W) : divDefault a b = a.sdiv b := by
  apply BitVec.eq_of_toInt_eq
  rw [divDefault, BitVec.toInt_ofInt, BitVec.toInt_sdiv]

/-! ## Division rounded toward zero -/

/-- What is left of the dividend is smaller than the divisor. -/
theorem abs_sub_tdiv_mul_lt (x : Int) {y : Int} (hy : y ≠ 0) : |x - x.tdiv y * y| < |y| := by
  have hrest : x - x.tdiv y * y = x.tmod y := by rw [Int.tmod_def, Int.mul_comm]
  rw [hrest, Int.abs_eq_natAbs, Int.abs_eq_natAbs, Int.natAbs_tmod]
  exact_mod_cast Nat.mod_lt _ (Int.natAbs_pos.2 hy)

/-- The quotient times the divisor does not pass the dividend. -/
theorem abs_tdiv_mul_le (x y : Int) : |x.tdiv y * y| ≤ |x| := by
  rw [Int.abs_eq_natAbs, Int.abs_eq_natAbs, Int.natAbs_mul, Int.natAbs_tdiv]
  exact_mod_cast Nat.div_mul_le_self _ _

/-- A quotient is negative exactly when it is not 0 and just one of the operands is negative. -/
theorem tdiv_neg_iff (x y : Int) : x.tdiv y < 0 ↔ x.tdiv y ≠ 0 ∧ (x < 0 ↔ ¬ y < 0) := by
  have hsign := Int.sign_tdiv x y
  split at hsign
  · have hzero : x.tdiv y = 0 := Int.sign_eq_zero_iff_zero.1 hsign
    simp [hzero]
  · rw [← Int.sign_eq_neg_one_iff_neg, ne_eq, ← Int.sign_eq_zero_iff_zero, hsign]
    rcases lt_trichotomy x 0 with hx | hx | hx <;> rcases lt_trichotomy y 0 with hy | hy | hy <;>
      simp [Int.sign_eq_neg_one_of_neg, Int.sign_eq_one_of_pos, hx, hy, hx.le, hy.le, Int.not_lt.2]

/-! ## The square root (R167, R173) -/

/-- The bits of the square root: from a `r` whose square is at most `n`, and at most `2 ^ k` below the root, to the root. -/
theorem sqrtBits_spec (n : Nat) : ∀ k r, r * r ≤ n → n < (r + 2 ^ k) * (r + 2 ^ k) →
    sqrtBits n k r * sqrtBits n k r ≤ n ∧ n < (sqrtBits n k r + 1) * (sqrtBits n k r + 1)
  | 0, r, hle, hlt => ⟨hle, by simpa [sqrtBits] using hlt⟩
  | k + 1, r, hle, hlt => by
    rw [sqrtBits]
    split
    · rename_i hbit
      exact sqrtBits_spec n k (r + 2 ^ k) hbit (by rwa [Nat.add_assoc, ← Nat.two_mul, ← Nat.pow_succ'])
    · rename_i hbit
      exact sqrtBits_spec n k r hle (Nat.not_le.1 hbit)

/-- The default SQRT_FN is the floor of the square root, for every width. -/
theorem sqrtDefault_spec {W : Nat} (a b : BitVec W) :
    (sqrtDefault a b).toNat * (sqrtDefault a b).toNat ≤ a.toNat ∧
      a.toNat < ((sqrtDefault a b).toNat + 1) * ((sqrtDefault a b).toNat + 1) := by
  have hstart : a.toNat < (0 + 2 ^ ((W + 1) / 2)) * (0 + 2 ^ ((W + 1) / 2)) := by
    rw [Nat.zero_add, ← Nat.pow_add]
    exact Nat.lt_of_lt_of_le a.isLt (Nat.pow_le_pow_right (by decide) (by omega))
  have hroot := sqrtBits_spec a.toNat ((W + 1) / 2) 0 (Nat.zero_le _) hstart
  have hfits : sqrtBits a.toNat ((W + 1) / 2) 0 < 2 ^ W :=
    Nat.lt_of_le_of_lt ((Nat.le_mul_self _).trans hroot.1) a.isLt
  rwa [sqrtDefault, BitVec.toNat_ofNat, Nat.mod_eq_of_lt hfits]

end Sys2Proof.Machine
end

section
/-! PROOFS. The statements about the arithmetic of one lane. -/

namespace Sys2Proof.Proofs

open Sys2Proof Sys2Proof.Machine

/-- Settles O36: neg_W is the negation of W-bit words, whose laws are the library's. -/
theorem negationLaws : Obligations.NegationLaws := by
  unfold Obligations.NegationLaws
  refine ⟨fun W v => ⟨negW_eq_neg v, ?_, ?_⟩, by decide, by decide⟩
  · rw [negW_eq_neg, negW_eq_neg, BitVec.neg_neg]
  · rw [addLane_eq_add, negW_eq_neg, BitVec.add_right_neg]
    rfl

/-- Settles O37: the product of W-bit words is that of either reading. -/
theorem defaultMulIsTheSignedProductToo : Obligations.DefaultMulIsTheSignedProductToo := by
  unfold Obligations.DefaultMulIsTheSignedProductToo
  intro W a b
  simp only [mulDefault_eq_mul]
  refine ⟨?_, BitVec.mul_comm a b, BitVec.mul_zero, BitVec.mul_one a⟩
  rw [BitVec.ofInt_mul, BitVec.ofInt_toInt, BitVec.ofInt_toInt]

/-- Settles O38: but for the one overflow the quotient is that of the integers. -/
theorem defaultDivRoundsTowardZero : Obligations.DefaultDivRoundsTowardZero := by
  unfold Obligations.DefaultDivRoundsTowardZero
  intro a b hb
  refine ⟨?_, fun hover => ?_⟩
  · rintro rfl rfl
    decide
  · have hquotient : (divDefault a b).toInt = a.toInt.tdiv b.toInt := by
      rw [divDefault_eq_sdiv]
      exact BitVec.toInt_sdiv_of_ne_or_ne a b (not_and_or.1 hover)
    have hb' : b.toInt ≠ 0 := fun h => hb (BitVec.eq_of_toInt_eq h)
    simp only [hquotient]
    exact ⟨abs_sub_tdiv_mul_lt _ hb', abs_tdiv_mul_le .., tdiv_neg_iff ..⟩

/-- Settles O39: the floor root, and the bound that its square gives. -/
theorem defaultSqrtIsTheFloorRoot : Obligations.DefaultSqrtIsTheFloorRoot := by
  unfold Obligations.DefaultSqrtIsTheFloorRoot
  intro a b b'
  obtain ⟨hle, hlt⟩ := sqrtDefault_spec a b
  refine ⟨hle, hlt, ?_, rfl⟩
  by_contra hbig
  have hsquare : 0x10000 * 0x10000 ≤ (sqrtDefault a b).toNat * (sqrtDefault a b).toNat :=
    Nat.mul_le_mul (Nat.not_le.1 hbig) (Nat.not_le.1 hbig)
  exact absurd (hsquare.trans hle) (Nat.not_le.2 a.isLt)

end Sys2Proof.Proofs
end

section
/-! SUPPORT. When each form completes, with what result, and what refuses it (40_operand_datapath.md R130; 42_logic_io.md R190 to R193;
43_branch.md R210; 60_exceptions.md R242). -/

namespace Sys2Proof.Machine

/-! ## What stops a form -/

/-- LOGIC has its function where the launch supplies it (42_logic_io.md R190); the other operations always. -/
theorem aluRefusal_eq_none {op : AluOp} {s : State} (h : op = .logic → s.cfg.logicFn = .supplied) : aluRefusal op s = none := by
  cases op with
  | logic => simp [aluRefusal, h rfl]
  | _ => rfl

/-- LOGIC without its function is refused (R190). -/
theorem aluRefusal_of_absent {s : State} (h : s.cfg.logicFn = .absent) :
    aluRefusal .logic s = some .logicOperationNotDocumented := by
  simp [aluRefusal, h]

section NotReadable

variable {a b : Src} {s : State} (h : ¬ s.Readable a ∨ ¬ s.Readable b)
include h

/-- Of two sources one of which is not readable one is not prepared (R132). -/
theorem sourceOperand_none_of_not_readable : sourceOperand s .source1 a = none ∨ sourceOperand s .source0 b = none :=
  h.imp (sourceOperand_of_not_readable _) (sourceOperand_of_not_readable _)

theorem rForm_of_not_readable (op : AluOp) (ctl : Control) (d : Dst) :
    rForm op ctl d a b s = .refused .registerIndexOutOfRange := by
  rcases sourceOperand_none_of_not_readable h with ha | hb
  · simp [rForm, ha]
  · simp [rForm, hb]

theorem branchForm_of_not_readable (op : AluOp) (ty : BranchType) (ctl : Control) (t : BitVec 8) :
    branchForm op ty ctl t a b s = .refused .registerIndexOutOfRange := by
  rcases sourceOperand_none_of_not_readable h with ha | hb
  · simp [branchForm, ha]
  · simp [branchForm, hb]

theorem execIo_of_not_readable (ctl : Control) (d : Dst) : execIo ctl d a b s = .refused .registerIndexOutOfRange := by
  rcases sourceOperand_none_of_not_readable h with ha | hb
  · simp [execIo, ha]
  · simp [execIo, hb]

end NotReadable

section Readable

variable {a b : Src} {s : State} (ha : s.Readable a) (hb : s.Readable b)
include ha hb

/-- Two readable sources are prepared (R132, R133). -/
theorem sourceOperands_of_readable :
    ∃ va vb, sourceOperand s .source1 a = some va ∧ sourceOperand s .source0 b = some vb := by
  obtain ⟨va, hva⟩ := sourceOperand_of_readable .source1 ha
  obtain ⟨vb, hvb⟩ := sourceOperand_of_readable .source0 hb
  exact ⟨va, vb, hva, hvb⟩

/-- Without its function an operation is refused once its sources are prepared (R190, R242). -/
theorem rForm_of_aluRefusal {op : AluOp} {r : Refusal} (h : aluRefusal op s = some r) (ctl : Control) (d : Dst) :
    rForm op ctl d a b s = .refused r := by
  obtain ⟨va, vb, hva, hvb⟩ := sourceOperands_of_readable ha hb
  simp [rForm, hva, hvb, h]

theorem branchForm_of_aluRefusal {op : AluOp} {r : Refusal} (h : aluRefusal op s = some r) (ty : BranchType) (ctl : Control)
    (t : BitVec 8) : branchForm op ty ctl t a b s = .refused r := by
  obtain ⟨va, vb, hva, hvb⟩ := sourceOperands_of_readable ha hb
  simp [branchForm, hva, hvb, h]

/-- A destination that cannot be written refuses an R-form (R132, R242). -/
theorem rForm_of_not_writable {op : AluOp} {d : Dst} (hop : aluRefusal op s = none) (hd : ¬ s.Writable d) (ctl : Control) :
    rForm op ctl d a b s = .refused .registerIndexOutOfRange := by
  obtain ⟨va, vb, hva, hvb⟩ := sourceOperands_of_readable ha hb
  simp [rForm, hva, hvb, hop, completeWrite_of_not_writable hd]

/-- IO in the R-form is a transfer of its prepared sources (42_logic_io.md R192). -/
theorem execIo_of_readable (ctl : Control) (d : Dst) :
    ∃ va vb, sourceOperand s .source1 a = some va ∧ sourceOperand s .source0 b = some vb ∧
      execIo ctl d a b s = ioTransfer ctl.eof d va vb s := by
  obtain ⟨va, vb, hva, hvb⟩ := sourceOperands_of_readable ha hb
  exact ⟨va, vb, hva, hvb, by simp [execIo, hva, hvb]⟩

/-- An R-form with readable sources and a writable destination completes: each lane of what it writes is the operation's (R130,
R135). -/
theorem rForm_writes {op : AluOp} {d : Dst} (hop : op = .logic → s.cfg.logicFn = .supplied) (hd : s.Writable d) (ctl : Control) :
    ∃ (va vb r : Vec s.cfg.width) (t : State), sourceOperand s .source1 a = some va ∧ sourceOperand s .source0 b = some vb ∧
      rForm op ctl d a b s = .next t ∧ Writes s t d r ∧ Advances s t ctl.eof (s.pc + 1) [] ∧
      ∀ c, r.get c = aluLane op ctl.scop s c (va.get c) (vb.get c) := by
  obtain ⟨va, vb, hva, hvb⟩ := sourceOperands_of_readable ha hb
  obtain ⟨t, ht, hwrites, hadv⟩ := rForm_completes ctl hva hvb (aluRefusal_eq_none hop) hd
  exact ⟨va, vb, _, t, hva, hvb, ht, hwrites, hadv, aluResult_get op ctl.scop s va vb⟩

/-- A branch with readable sources completes, and its result decides where `pc` goes (43_branch.md R210). -/
theorem branchForm_completes (ctl : Control) (tgt : BitVec 8) :
    ∃ va vb, sourceOperand s .source1 a = some va ∧ sourceOperand s .source0 b = some vb ∧
      ∀ op ty, (op = .logic → s.cfg.logicFn = .supplied) →
        ∃ t, exec (.ofBranch op ty ctl tgt a b) s = .next t ∧ t.regs = s.regs ∧ Advances s t ctl.eof t.pc [] ∧
          t.pc = if branchTaken s.cfg ty (aluResult op ctl.scop s va vb) then tgt.toNat else s.pc + 1 := by
  obtain ⟨va, vb, hva, hvb⟩ := sourceOperands_of_readable ha hb
  refine ⟨va, vb, hva, hvb, fun op ty hop =>
    ⟨retire ctl.eof (if branchTaken s.cfg ty (aluResult op ctl.scop s va vb) then tgt.toNat else s.pc + 1) s, ?_, rfl,
      advances_retire .., rfl⟩⟩
  rw [exec_ofBranch]
  simp [branchForm, hva, hvb, aluRefusal_eq_none hop]

/-- The same for a list of operations fused with one branch type, whose condition of the result is told as a proposition. -/
theorem branch_list_completes {ty : BranchType} {ctl : Control} {tgt : BitVec 8} {l : List (AluOp × Instr)}
    (condition : Vec s.cfg.width → Prop) (hcondition : ∀ r, branchTaken s.cfg ty r = true ↔ condition r)
    (hl : ∀ p ∈ l, p.2 = .ofBranch p.1 ty ctl tgt a b) :
    ∃ va vb, sourceOperand s .source1 a = some va ∧ sourceOperand s .source0 b = some vb ∧
      ∀ p ∈ l, (p.1 = .logic → s.cfg.logicFn = .supplied) →
        ∃ t, exec p.2 s = .next t ∧ t.regs = s.regs ∧ Advances s t ctl.eof t.pc [] ∧
          ((condition (aluResult p.1 ctl.scop s va vb) ∧ t.pc = tgt.toNat) ∨
            (¬ condition (aluResult p.1 ctl.scop s va vb) ∧ t.pc = s.pc + 1)) := by
  obtain ⟨va, vb, hva, hvb, hcompletes⟩ := branchForm_completes ha hb ctl tgt
  refine ⟨va, vb, hva, hvb, fun p hp hop => ?_⟩
  obtain ⟨t, ht, hregs, hadv, hpc⟩ := hcompletes p.1 ty hop
  refine ⟨t, (hl p hp).symm ▸ ht, hregs, hadv, ?_⟩
  rw [hpc, ← hcondition]
  cases branchTaken s.cfg ty (aluResult p.1 ctl.scop s va vb) with
  | true => exact .inl ⟨rfl, rfl⟩
  | false => exact .inr ⟨Bool.false_ne_true, rfl⟩

end Readable

/-- Without its function an operation in the I-form is refused (R191). -/
theorem iForm_of_aluRefusal {op : AluOp} {s : State} {r : Refusal} (h : aluRefusal op s = some r) (ctl : Control) (d : Dst)
    (imm : Word) : iForm op ctl d imm s = .refused r := by
  simp [iForm, h]

/-- A destination that cannot be written refuses an I-form (R132, R242). -/
theorem iForm_of_not_writable {op : AluOp} {d : Dst} {s : State} (hop : aluRefusal op s = none) (hd : ¬ s.Writable d) (ctl : Control)
    (imm : Word) : iForm op ctl d imm s = .refused .registerIndexOutOfRange := by
  simp [iForm, hop, completeWrite_of_not_writable hd]

/-- An I-form with a writable destination completes: each lane of what it writes is the operation's, on the literal and 0 (R130,
R134, R135). -/
theorem iForm_writes {op : AluOp} {d : Dst} {s : State} (hop : op = .logic → s.cfg.logicFn = .supplied) (hd : s.Writable d)
    (ctl : Control) (imm : Word) :
    ∃ (r : Vec s.cfg.width) (t : State), iForm op ctl d imm s = .next t ∧ Writes s t d r ∧ Advances s t ctl.eof (s.pc + 1) [] ∧
      ∀ c, r.get c = aluLane op ctl.scop s c (literalValue s.cfg.width imm) 0 := by
  obtain ⟨t, ht, hwrites, hadv⟩ := iForm_completes ctl imm (aluRefusal_eq_none hop) hd
  refine ⟨_, t, ht, hwrites, hadv, fun c => ?_⟩
  rw [aluResult_get, literalOperand_get, zeroOperand_get]
  rfl

/-! ## IO (42_logic_io.md R192, R193) -/

theorem ioTransfer_of_refuse {W : Nat} {s : State} (h : s.cfg.ioModel = .refuse) (eof : Bool) (d : Dst) (va vb : Vec W) :
    ioTransfer eof d va vb s = .refused .ioNotDocumented := by
  simp [ioTransfer, h]

/-- A destination that cannot be written refuses a transfer, under IO_MODEL = opaque (R132, R242). -/
theorem ioTransfer_of_not_writable {W : Nat} {s : State} {d : Dst} (hmodel : s.cfg.ioModel = .opaqueEvents) (hd : ¬ s.Writable d)
    (eof : Bool) (va vb : Vec W) : ioTransfer eof d va vb s = .refused .registerIndexOutOfRange := by
  simp only [ioTransfer, hmodel]
  exact completeWrite_of_not_writable hd

/-- A transfer to a writable destination completes, with one event and draws for values, under IO_MODEL = opaque (R192). -/
theorem ioTransfer_completes {W : Nat} {s : State} {d : Dst} (hmodel : s.cfg.ioModel = .opaqueEvents) (hd : s.Writable d)
    (eof : Bool) (va vb : Vec W) :
    ∃ t, ioTransfer eof d va vb s = .next t ∧ Writes s t d (ioInput s) ∧ Advances s t eof (s.pc + 1) [ioEvent d va vb s] := by
  have hd' : State.Writable { s with ioLog := s.ioLog ++ [ioEvent d va vb s] } d := hd
  obtain ⟨t, ht, hwrites, hadv⟩ := completeWrite_of_writable (eof := eof) (r := ioInput s) hd'
  refine ⟨t, ?_, hwrites, hadv.counter, hadv.halted, hadv.history.trans (List.append_nil _), hadv.tick, hadv.configuration,
    hadv.offset, hadv.memory, hadv.mark⟩
  simp only [ioTransfer, hmodel]
  exact ht

theorem readings_zeroOperand (W : Nat) : (zeroOperand W).readings = ⟨0, 0, 0⟩ := by
  simp [zeroOperand, Vec3.all, Vec3.readings]

/-! ## The default and the supplied functions in one lane (41_arithmetic.md R171 to R173) -/

theorem mulLane_default {W : Nat} {cfg : Config} (h : cfg.mulFn = .specDefault) (a b : BitVec W) :
    mulLane cfg a b = BitVec.ofNat W (a.toNat * b.toNat) := by
  simp [mulLane, h, mulDefault]

theorem mulLane_supplied {W : Nat} {cfg : Config} (h : cfg.mulFn = .supplied) (a b : BitVec W) :
    mulLane cfg a b = Config.mulFunction a b := by
  simp [mulLane, h]

theorem divLane_default {W : Nat} {cfg : Config} (h : cfg.divFn = .specDefault) (free a b : BitVec W) (hb : b ≠ 0) :
    divLane cfg free a b = BitVec.ofInt W (Int.tdiv a.toInt b.toInt) := by
  rw [divLane, if_neg hb, h]
  rfl

theorem divLane_supplied {W : Nat} {cfg : Config} (h : cfg.divFn = .supplied) (free a b : BitVec W) :
    divLane cfg free a b = if b = 0 then free else Config.divFunction a b := by
  simp [divLane, h]

theorem sqrtLane_default {W : Nat} {cfg : Config} (h : cfg.sqrtFn = .specDefault) (a b : BitVec W) :
    sqrtLane cfg a b = sqrtDefault a b := by
  simp [sqrtLane, h]

theorem sqrtLane_supplied {W : Nat} {cfg : Config} (h : cfg.sqrtFn = .supplied) (a b : BitVec W) :
    sqrtLane cfg a b = Config.sqrtFunction a b := by
  simp [sqrtLane, h]

/-! ## Sources (40_operand_datapath.md R133) -/

/-- A channel of a register that is there makes its source readable. -/
theorem readable_of_channel {s : State} {o : Src} {c : Chan} {u : Channel}
    (h : s.channel (effIndex s o.addr o.displaced) c = some u) : s.Readable o := by
  obtain ⟨r, hr, -⟩ := Option.map_eq_some_iff.1 h
  obtain ⟨hlt, -⟩ := List.getElem?_eq_some_iff.1 hr
  exact hlt

/-- An unswizzled source of a register all of whose channels have been written: its value, or its negation in every lane. -/
theorem sourceOperand_of_written {s : State} {i : BitVec 8} {di : Bool} {u : Vec s.cfg.width} (hhazards : s.cfg.noHazards = true)
    (h : ∀ c, s.channel (effIndex s i di) c = some ⟨(u.get c).toNat, true⟩) (site : DrawSite) (n : Bool) :
    ∃ v, sourceOperand s site ⟨i, di, ⟨n, n, n⟩, ⟨.x, .y, .z⟩⟩ = some v ∧ ∀ c, v.get c = if n then -u.get c else u.get c := by
  have hreadable : s.Readable ⟨i, di, ⟨n, n, n⟩, ⟨.x, .y, .z⟩⟩ := readable_of_channel (h .x)
  obtain ⟨v, hv⟩ := sourceOperand_of_readable site hreadable
  refine ⟨v, hv, fun c => ?_⟩
  have hsel : (⟨.x, .y, .z⟩ : Vec3 Chan).get c = c := by cases c <;> rfl
  have hneg : (⟨n, n, n⟩ : Vec3 Bool).get c = n := by cases c <;> rfl
  have hx : s.channel (effIndex s i di) ((⟨.x, .y, .z⟩ : Vec3 Chan).get c) = some ⟨(u.get c).toNat, true⟩ := by rw [hsel, h]
  have hlane := sourceOperand_get_of_written hhazards hv hx
  rwa [show (Src.neg ⟨i, di, ⟨n, n, n⟩, ⟨.x, .y, .z⟩⟩).get c = n from hneg] at hlane

/-- Source 1 and the negated source 0 of the subtraction and of the compare and branch: the lanes of their sum are the differences. -/
theorem sum_with_negated_source {s : State} {j k : BitVec 8} {dj dk : Bool} {u v : Vec s.cfg.width}
    (hhazards : s.cfg.noHazards = true) (hu : ∀ c, s.channel (effIndex s j dj) c = some ⟨(u.get c).toNat, true⟩)
    (hv : ∀ c, s.channel (effIndex s k dk) c = some ⟨(v.get c).toNat, true⟩) :
    ∃ va vb, sourceOperand s .source1 ⟨j, dj, ⟨false, false, false⟩, ⟨.x, .y, .z⟩⟩ = some va ∧
      sourceOperand s .source0 ⟨k, dk, ⟨true, true, true⟩, ⟨.x, .y, .z⟩⟩ = some vb ∧
      ∀ c, (aluResult .add 0 s va vb).get c = u.get c - v.get c := by
  obtain ⟨va, hva, ha⟩ := sourceOperand_of_written hhazards hu .source1 false
  obtain ⟨vb, hvb, hb⟩ := sourceOperand_of_written hhazards hv .source0 true
  refine ⟨va, vb, hva, hvb, fun c => ?_⟩
  calc (aluResult .add 0 s va vb).get c
    _ = addLane (va.get c) (vb.get c) := aluResult_get ..
    _ = u.get c + -v.get c := by rw [addLane_eq_add, ha, hb]; rfl
    _ = u.get c - v.get c := (BitVec.sub_eq_add_neg ..).symm

/-! ## The conditions of a branch (43_branch.md R211 to R218) -/

theorem zeroCondition_allLanes {W : Nat} {cfg : Config} (h : cfg.zeroRule = .allLanes) (r : Vec W) :
    zeroCondition cfg r = true ↔ r.x = 0 ∧ r.y = 0 ∧ r.z = 0 := by
  simp [zeroCondition, h, and_assoc]

theorem zeroCondition_laneX {W : Nat} {cfg : Config} (h : cfg.zeroRule = .laneX) (r : Vec W) :
    zeroCondition cfg r = true ↔ r.x = 0 := by
  simp [zeroCondition, h]

theorem zeroCondition_supplied {W : Nat} {cfg : Config} (h : cfg.zeroRule = .supplied) (r : Vec W) :
    zeroCondition cfg r = Config.zeroFunction r := by
  simp [zeroCondition, h]

theorem signCondition_laneX {W : Nat} {cfg : Config} (h : cfg.signRule = .laneX) (r : Vec W) :
    signCondition cfg r = r.x.getLsbD (W - 1) := by
  simp only [signCondition, h]
  rfl

theorem signCondition_anyLane {W : Nat} {cfg : Config} (h : cfg.signRule = .anyLane) (r : Vec W) :
    signCondition cfg r = (r.x.getLsbD (W - 1) || r.y.getLsbD (W - 1) || r.z.getLsbD (W - 1)) := by
  simp only [signCondition, h]
  rfl

theorem signCondition_everyLane {W : Nat} {cfg : Config} (h : cfg.signRule = .everyLane) (r : Vec W) :
    signCondition cfg r = (r.x.getLsbD (W - 1) && r.y.getLsbD (W - 1) && r.z.getLsbD (W - 1)) := by
  simp only [signCondition, h]
  rfl

theorem signCondition_supplied {W : Nat} {cfg : Config} (h : cfg.signRule = .supplied) (r : Vec W) :
    signCondition cfg r = Config.signFunction r := by
  simp [signCondition, h]

/-- A result of differences is 0 in all lanes exactly when the two vectors are equal. -/
theorem zeroCondition_of_differences {W : Nat} {cfg : Config} (hz : cfg.zeroRule = .allLanes) {r u v : Vec W}
    (h : ∀ c, r.get c = u.get c - v.get c) : zeroCondition cfg r = true ↔ u = v := by
  have hlane : ∀ c, r.get c = 0 ↔ u.get c = v.get c := fun c => by
    rw [h]
    exact BitVec.sub_eq_iff_eq_add.trans (by simp)
  rw [zeroCondition_allLanes hz]
  constructor
  · rintro ⟨hx, hy, hz⟩
    refine Vec3_eq_of_get fun c => (hlane c).1 ?_
    cases c with
    | x => exact hx
    | y => exact hy
    | z => exact hz
  · rintro rfl
    exact ⟨(hlane .x).2 rfl, (hlane .y).2 rfl, (hlane .z).2 rfl⟩

/-- A result that is 0 in lane x has the sign bit 0 there. -/
theorem sign_false_of_zero {W : Nat} {cfg : Config} (hz : cfg.zeroRule = .allLanes) (hs : cfg.signRule = .laneX) {r : Vec W}
    (h : zeroCondition cfg r = true) : signCondition cfg r = false := by
  obtain ⟨hx, -, -⟩ := (zeroCondition_allLanes hz r).1 h
  rw [signCondition_laneX hs, hx]
  exact BitVec.getLsbD_zero

/-- Two branch types that take the same branches give one branch (R210). -/
theorem branchForm_congr {ty ty' : BranchType} {s : State}
    (h : ∀ r : Vec s.cfg.width, branchTaken s.cfg ty r = branchTaken s.cfg ty' r) (op : AluOp) (ctl : Control) (t : BitVec 8)
    (a b : Src) : branchForm op ty ctl t a b s = branchForm op ty' ctl t a b s := by
  simp only [branchForm, h]

end Sys2Proof.Machine
end

section
/-! PROOFS. The statements about operands, results, refusals and branches, instruction by instruction. -/

namespace Sys2Proof.Proofs

open Sys2Proof Sys2Proof.Machine

/-! ## Operands and NOP -/

/-- Settles O11: the channel that the swizzle selects is read, then negated. -/
theorem sourceOperandIsSwizzledThenNegated : Obligations.SourceOperandIsSwizzledThenNegated := by
  unfold Obligations.SourceOperandIsSwizzledThenNegated
  intro s site o hreadable
  obtain ⟨r, hr⟩ := Option.isSome_iff_exists.1 ((regAt_isSome s _).2 hreadable)
  refine ⟨_, r, sourceOperand_of_regAt hr, hr, fun c =>
    ⟨(r.get (o.sel.get c)).read s.cfg (draw s site c), fun hwritten hhazards => read_of_written hwritten hhazards _, ?_, ?_⟩⟩
  · rintro (hunwritten | hhazards)
    · exact read_of_unwritten hunwritten _
    · exact read_of_hazards hhazards _
  · rw [Vec3_get_ofLanes, sourceLane, negW_eq_neg]

/-- Settles O12: the effective index is the plain sum. -/
theorem displacedIndexAddsTheFrameOffset : Obligations.DisplacedIndexAddsTheFrameOffset := by
  unfold Obligations.DisplacedIndexAddsTheFrameOffset
  refine fun s n => ⟨rfl, rfl, ?_⟩
  rintro hfo rfl
  simp [effIndex, hfo]

/-- Settles O15: NOP is the end of an instruction and nothing else. -/
theorem nopOnlyAdvances : Obligations.NopOnlyAdvances := by
  unfold Obligations.NopOnlyAdvances
  exact fun eof s => exec_nop eof s

/-! ## Refusals -/

/-- Settles O13: a source that is not there, then a destination that is not there, form by form. -/
theorem registerIndexOutOfRangeIsRefused : Obligations.RegisterIndexOutOfRangeIsRefused := by
  unfold Obligations.RegisterIndexOutOfRangeIsRefused
  intro ctl d a b imm t s
  refine ⟨fun hsources => ⟨fun op => ?_, execIo_of_not_readable hsources ctl d, fun op ty => ?_⟩, fun hd =>
    ⟨fun ha hb => ⟨?_, fun hlogic => ?_, fun hmodel => ?_⟩, ?_, fun hlogic => ?_, fun hmodel => ?_⟩⟩
  · rw [exec_ofRForm, rForm_of_not_readable hsources]
  · rw [exec_ofBranch, branchForm_of_not_readable hsources]
  · have hform : ∀ op : AluOp, op ≠ .logic → exec (.ofRForm op ctl d a b) s = .refused .registerIndexOutOfRange := fun op hop => by
      rw [exec_ofRForm, rForm_of_not_writable ha hb (aluRefusal_of_ne_logic hop s) hd]
    simp only [List.forall_mem_cons]
    exact ⟨hform .add (by decide), hform .div (by decide), hform .mul (by decide), hform .sqrt (by decide), List.forall_mem_nil _⟩
  · exact rForm_of_not_writable ha hb (aluRefusal_eq_none fun _ => hlogic) hd ctl
  · obtain ⟨va, vb, -, -, htransfer⟩ := execIo_of_readable ha hb ctl d
    rw [exec_io, htransfer, ioTransfer_of_not_writable hmodel hd]
  · have hform : ∀ op : AluOp, op ≠ .logic → exec (.ofIForm op ctl d imm) s = .refused .registerIndexOutOfRange := fun op hop => by
      rw [exec_ofIForm, iForm_of_not_writable (aluRefusal_of_ne_logic hop s) hd]
    simp only [List.forall_mem_cons]
    exact ⟨hform .add (by decide), hform .div (by decide), hform .mul (by decide), hform .sqrt (by decide), List.forall_mem_nil _⟩
  · exact iForm_of_not_writable (aluRefusal_eq_none fun _ => hlogic) hd ctl imm
  · rw [exec_ioI, ioTransfer_of_not_writable hmodel hd]

/-- Settles O25: LOGIC in each of its forms, and IO in both, without what the launch must supply. -/
theorem unsuppliedLogicAndIoAreRefused : Obligations.UnsuppliedLogicAndIoAreRefused := by
  unfold Obligations.UnsuppliedLogicAndIoAreRefused
  intro ctl d a b imm tgt s ha hb
  refine ⟨fun habsent => ?_, fun hrefuse => ⟨?_, ?_⟩⟩
  · have hop := aluRefusal_of_absent habsent
    have hbranch := branchForm_of_aluRefusal ha hb hop
    simp only [List.forall_mem_cons]
    exact ⟨rForm_of_aluRefusal ha hb hop ctl d, iForm_of_aluRefusal hop ctl d imm, hbranch .always ctl tgt, hbranch .zero ctl tgt,
      hbranch .notZero ctl tgt, hbranch .sign ctl tgt, hbranch .notSign ctl tgt, hbranch .zeroOrSign ctl tgt,
      hbranch .zeroOrNotSign ctl tgt, List.forall_mem_nil _⟩
  · obtain ⟨va, vb, -, -, htransfer⟩ := execIo_of_readable ha hb ctl d
    rw [exec_io, htransfer, ioTransfer_of_refuse hrefuse]
  · rw [exec_ioI, ioTransfer_of_refuse hrefuse]

/-! ## Results -/

/-- Settles O16: the R-form completes, and each lane of its result is a sum of W-bit words. -/
theorem addRegisterFormWritesTheSum : Obligations.AddRegisterFormWritesTheSum := by
  unfold Obligations.AddRegisterFormWritesTheSum
  intro eof d a b s ha hb hd
  obtain ⟨va, vb, r, t, hva, hvb, ht, hwrites, hadv, hr⟩ := rForm_writes ha hb (op := .add) (by simp) hd ⟨eof, 0⟩
  refine ⟨va, vb, r, t, hva, hvb, ht, hwrites, hadv, Vec3_eq_of_get fun c => ?_⟩
  calc r.get c
    _ = addLane (va.get c) (vb.get c) := hr c
    _ = va.get c + vb.get c := addLane_eq_add ..
    _ = _ := by cases c <;> rfl

/-- Settles O18: the R-form completes, and each lane of its result is DIV_FN's, or a draw where the divisor is 0. -/
theorem divRegisterFormWritesTheQuotient : Obligations.DivRegisterFormWritesTheQuotient := by
  unfold Obligations.DivRegisterFormWritesTheQuotient
  intro eof d a b s hfn ha hb hd
  obtain ⟨va, vb, r, t, hva, hvb, ht, hwrites, hadv, hr⟩ := rForm_writes ha hb (op := .div) (by simp) hd ⟨eof, 0⟩
  refine ⟨va, vb, r, t, hva, hvb, ht, hwrites, hadv, fun c => ⟨fun hne => ?_, fun hzero => ?_⟩⟩
  · exact (hr c).trans (divLane_default hfn _ _ _ hne)
  · rw [hr c, hzero]
    exact aluLane_div_zero ..

/-- Settles O20: both forms complete; a product with 0 is 0. -/
theorem mulFormsWriteTheLowProduct : Obligations.MulFormsWriteTheLowProduct := by
  unfold Obligations.MulFormsWriteTheLowProduct
  constructor
  · intro eof d a b s hfn ha hb hd
    obtain ⟨va, vb, r, t, hva, hvb, ht, hwrites, hadv, hr⟩ := rForm_writes ha hb (op := .mul) (by simp) hd ⟨eof, 0⟩
    exact ⟨va, vb, r, t, hva, hvb, ht, hwrites, hadv, fun c => (hr c).trans (mulLane_default hfn ..)⟩
  · intro eof d imm s hfn hd
    obtain ⟨r, t, ht, hwrites, hadv, hr⟩ := iForm_writes (op := .mul) (by simp) hd ⟨eof, 0⟩ imm
    have hzero : r = ⟨0, 0, 0⟩ := Vec3_eq_of_get fun c => by
      calc r.get c
        _ = BitVec.ofNat s.cfg.width ((literalValue s.cfg.width imm).toNat * (0 : BitVec s.cfg.width).toNat) :=
          (hr c).trans (mulLane_default hfn ..)
        _ = 0 := by simp
        _ = _ := by cases c <;> rfl
    exact ⟨t, ht, hzero ▸ hwrites, hadv⟩

/-- Settles O21: both forms complete, and each lane of the result is the floor root. -/
theorem sqrtFormsWriteTheFloorRoot : Obligations.SqrtFormsWriteTheFloorRoot := by
  unfold Obligations.SqrtFormsWriteTheFloorRoot
  constructor
  · intro eof d a b s hfn ha hb hd
    obtain ⟨va, vb, r, t, hva, hvb, ht, hwrites, hadv, hr⟩ := rForm_writes ha hb (op := .sqrt) (by simp) hd ⟨eof, 0⟩
    refine ⟨va, vb, r, t, hva, hvb, ht, hwrites, hadv, fun c => ?_⟩
    have hlane : r.get c = sqrtDefault (va.get c) (vb.get c) := (hr c).trans (sqrtLane_default hfn ..)
    rw [hlane]
    exact sqrtDefault_spec ..
  · intro eof d imm s hfn hd
    obtain ⟨r, t, ht, hwrites, hadv, hr⟩ := iForm_writes (op := .sqrt) (by simp) hd ⟨eof, 0⟩ imm
    have hroot : r = Vec3.all (sqrtDefault (literalValue s.cfg.width imm) 0) :=
      Vec3_eq_of_get fun c => ((hr c).trans (sqrtLane_default hfn ..)).trans (Vec3_all_get ..).symm
    obtain ⟨hle, hlt⟩ := sqrtDefault_spec (literalValue s.cfg.width imm) 0
    rw [hroot] at hwrites
    exact ⟨_, t, ht, hwrites, hadv, hle, hlt⟩

/-- Settles O22: each form completes, and each lane of the result is the supplied function's. -/
theorem suppliedFunctionsDecideMulDivSqrt : Obligations.SuppliedFunctionsDecideMulDivSqrt := by
  unfold Obligations.SuppliedFunctionsDecideMulDivSqrt
  constructor
  · intro eof d a b s ha hb hd
    obtain ⟨va, vb, hva, hvb⟩ := sourceOperands_of_readable ha hb
    have hform : ∀ op : AluOp, op ≠ .logic → ∃ (r : Vec s.cfg.width) (t : State), exec (.ofRForm op ⟨eof, 0⟩ d a b) s = .next t ∧
        Writes s t d r ∧ Advances s t eof (s.pc + 1) [] ∧ ∀ c, r.get c = plainLane op s c (va.get c) (vb.get c) := by
      intro op hop
      obtain ⟨t, ht, hwrites, hadv⟩ := rForm_completes ⟨eof, 0⟩ hva hvb (aluRefusal_of_ne_logic hop s) hd
      exact ⟨_, t, by rw [exec_ofRForm, ht], hwrites, hadv, fun c => aluResult_get ..⟩
    refine ⟨va, vb, hva, hvb, fun hfn => ?_, fun hfn => ?_, fun hfn => ?_⟩
    · obtain ⟨r, t, ht, hwrites, hadv, hr⟩ := hform .mul (by decide)
      exact ⟨r, t, ht, hwrites, hadv, fun c => (hr c).trans (mulLane_supplied hfn ..)⟩
    · obtain ⟨r, t, ht, hwrites, hadv, hr⟩ := hform .div (by decide)
      exact ⟨r, t, ht, hwrites, hadv, fun c => (hr c).trans (divLane_supplied hfn ..)⟩
    · obtain ⟨r, t, ht, hwrites, hadv, hr⟩ := hform .sqrt (by decide)
      exact ⟨r, t, ht, hwrites, hadv, fun c => (hr c).trans (sqrtLane_supplied hfn ..)⟩
  · intro eof d imm s hd
    refine ⟨fun hfn => ?_, fun hfn => ?_⟩
    · obtain ⟨r, t, ht, hwrites, hadv, hr⟩ := iForm_writes (op := .mul) (by simp) hd ⟨eof, 0⟩ imm
      exact ⟨r, t, ht, hwrites, hadv, fun c => (hr c).trans (mulLane_supplied hfn ..)⟩
    · obtain ⟨r, t, ht, hwrites, hadv, hr⟩ := iForm_writes (op := .sqrt) (by simp) hd ⟨eof, 0⟩ imm
      exact ⟨r, t, ht, hwrites, hadv, fun c => (hr c).trans (sqrtLane_supplied hfn ..)⟩

/-- Settles O23: both forms complete, and each lane of the result is LOGIC_FN of the selector. -/
theorem logicFormsWriteTheSuppliedFunction : Obligations.LogicFormsWriteTheSuppliedFunction := by
  unfold Obligations.LogicFormsWriteTheSuppliedFunction
  constructor
  · intro ctl d a b s hfn ha hb hd
    obtain ⟨va, vb, r, t, hva, hvb, ht, hwrites, hadv, hr⟩ := rForm_writes ha hb (op := .logic) (fun _ => hfn) hd ctl
    exact ⟨va, vb, r, t, hva, hvb, ht, hwrites, hadv, fun c => (hr c).trans (aluLane_logic ..)⟩
  · intro ctl d imm s hfn hd
    obtain ⟨r, t, ht, hwrites, hadv, hr⟩ := iForm_writes (op := .logic) (fun _ => hfn) hd ctl imm
    exact ⟨r, t, ht, hwrites, hadv, fun c => (hr c).trans (aluLane_logic ..)⟩

/-- Settles O24: both forms are a transfer of their operands, which completes with one event. -/
theorem ioFormsRecordAnEvent : Obligations.IoFormsRecordAnEvent := by
  unfold Obligations.IoFormsRecordAnEvent
  intro ctl d s hmodel hd
  refine ⟨fun a b ha hb => ?_, fun imm => ?_⟩
  · obtain ⟨va, vb, hva, hvb, htransfer⟩ := execIo_of_readable ha hb ctl d
    obtain ⟨t, ht, hwrites, hadv⟩ := ioTransfer_completes hmodel hd ctl.eof va vb
    exact ⟨va, vb, t, hva, hvb, htransfer.trans ht, hwrites, hadv⟩
  · obtain ⟨t, ht, hwrites, hadv⟩ :=
      ioTransfer_completes hmodel hd ctl.eof (literalOperand s.cfg.width imm) (zeroOperand s.cfg.width)
    refine ⟨t, ht, hwrites, ?_⟩
    rw [ioEvent, readings_zeroOperand] at hadv
    exact hadv

/-! ## Branches -/

/-- Settles O27: the condition always holds. -/
theorem branchAlwaysCompletes : Obligations.BranchAlwaysCompletes := by
  unfold Obligations.BranchAlwaysCompletes
  intro ctl tgt a b s ha hb
  obtain ⟨va, vb, hva, hvb, hcompletes⟩ := branchForm_completes ha hb ctl tgt
  refine ⟨va, vb, hva, hvb, fun p hp hop => ?_⟩
  have hform : p.2 = .ofBranch p.1 .always ctl tgt a b := by
    revert p
    simp [Instr.ofBranch]
  rw [hform]
  exact hcompletes p.1 .always hop

/-- Settles O28: the condition is that of ZERO_RULE. -/
theorem branchZeroCompletes : Obligations.BranchZeroCompletes := by
  unfold Obligations.BranchZeroCompletes
  intro ctl tgt a b s hz ha hb
  exact branch_list_completes (ty := .zero) ha hb (fun r => r.x = 0 ∧ r.y = 0 ∧ r.z = 0) (zeroCondition_allLanes hz)
    (by simp [Instr.ofBranch])

/-- Settles O29: the condition is the opposite of ZERO_RULE's. -/
theorem branchNotZeroCompletes : Obligations.BranchNotZeroCompletes := by
  unfold Obligations.BranchNotZeroCompletes
  intro ctl tgt a b s hz ha hb
  refine branch_list_completes (ty := .notZero) ha hb (fun r => ¬ (r.x = 0 ∧ r.y = 0 ∧ r.z = 0)) (fun r => ?_)
    (by simp [Instr.ofBranch])
  rw [← zeroCondition_allLanes hz]
  simp [branchTaken, branchCondition]

/-- Settles O30: the condition is that of SIGN_RULE. -/
theorem branchSignCompletes : Obligations.BranchSignCompletes := by
  unfold Obligations.BranchSignCompletes
  intro ctl tgt a b s hs ha hb
  refine branch_list_completes (ty := .sign) ha hb (fun r => r.x.getLsbD (s.cfg.width - 1) = true) (fun r => ?_)
    (by simp [Instr.ofBranch])
  rw [← signCondition_laneX hs]
  simp [branchTaken, branchCondition]

/-- Settles O31: the condition is the opposite of SIGN_RULE's. -/
theorem branchNotSignCompletes : Obligations.BranchNotSignCompletes := by
  unfold Obligations.BranchNotSignCompletes
  intro ctl tgt a b s hs ha hb
  refine branch_list_completes (ty := .notSign) ha hb (fun r => r.x.getLsbD (s.cfg.width - 1) = false) (fun r => ?_)
    (by simp [Instr.ofBranch])
  rw [← signCondition_laneX hs]
  simp [branchTaken, branchCondition]

/-- Settles O32: one of the two conditions. -/
theorem branchZeroOrSignCompletes : Obligations.BranchZeroOrSignCompletes := by
  unfold Obligations.BranchZeroOrSignCompletes
  intro ctl tgt a b s hz hs ha hb
  refine branch_list_completes (ty := .zeroOrSign) ha hb
    (fun r => (r.x = 0 ∧ r.y = 0 ∧ r.z = 0) ∨ r.x.getLsbD (s.cfg.width - 1) = true) (fun r => ?_) (by simp [Instr.ofBranch])
  rw [← signCondition_laneX hs, ← zeroCondition_allLanes hz]
  simp [branchTaken, branchCondition]

/-- Settles O33: the condition of ZERO_RULE or the opposite of SIGN_RULE's. -/
theorem branchZeroOrNotSignCompletes : Obligations.BranchZeroOrNotSignCompletes := by
  unfold Obligations.BranchZeroOrNotSignCompletes
  intro ctl tgt a b s hz hs ha hb
  refine branch_list_completes (ty := .zeroOrNotSign) ha hb
    (fun r => (r.x = 0 ∧ r.y = 0 ∧ r.z = 0) ∨ r.x.getLsbD (s.cfg.width - 1) = false) (fun r => ?_) (by simp [Instr.ofBranch])
  rw [← signCondition_laneX hs, ← zeroCondition_allLanes hz]
  simp [branchTaken, branchCondition]

/-- Settles O40: a result with ZERO has SIGN 0, so ZERO or NOT_SIGN is NOT_SIGN. -/
theorem zeroOrNotSignIsNotSignByDefault : Obligations.ZeroOrNotSignIsNotSignByDefault := by
  unfold Obligations.ZeroOrNotSignIsNotSignByDefault
  intro op ctl tgt a b s hz hs
  rw [exec_ofBranch, exec_ofBranch]
  refine branchForm_congr (fun r => ?_) ..
  cases hzero : zeroCondition s.cfg r with
  | false => simp [branchTaken, branchCondition, hzero]
  | true => simp [branchTaken, branchCondition, hzero, sign_false_of_zero hz hs hzero]

/-- Settles O56: the two conditions are those of the configured rules, and each branch type combines them. -/
theorem everyZeroAndSignRuleDecidesTheBranches : Obligations.EveryZeroAndSignRuleDecidesTheBranches := by
  unfold Obligations.EveryZeroAndSignRuleDecidesTheBranches
  intro op ctl tgt a b s ha hb hop
  obtain ⟨va, vb, hva, hvb, hcompletes⟩ := branchForm_completes ha hb ctl tgt
  refine ⟨va, vb, hva, hvb, fun Z S ⟨hzAll, hzX, hzSupplied, hsX, hsAny, hsEvery, hsSupplied⟩ row hrow => ?_⟩
  have hZ : zeroCondition s.cfg (aluResult op ctl.scop s va vb) = Z := by
    cases hrule : s.cfg.zeroRule with
    | allLanes => exact Bool.eq_iff_iff.2 ((zeroCondition_allLanes hrule _).trans (hzAll hrule).symm)
    | laneX => exact Bool.eq_iff_iff.2 ((zeroCondition_laneX hrule _).trans (hzX hrule).symm)
    | supplied => exact (zeroCondition_supplied hrule _).trans (hzSupplied hrule).symm
  have hS : signCondition s.cfg (aluResult op ctl.scop s va vb) = S := by
    cases hrule : s.cfg.signRule with
    | laneX => exact (signCondition_laneX hrule _).trans (hsX hrule).symm
    | anyLane => exact (signCondition_anyLane hrule _).trans (hsAny hrule).symm
    | everyLane => exact (signCondition_everyLane hrule _).trans (hsEvery hrule).symm
    | supplied => exact (signCondition_supplied hrule _).trans (hsSupplied hrule).symm
  have hrowCondition : row.2 = branchCondition row.1 Z S := by
    revert row
    simp [branchCondition]
  obtain ⟨t, ht, hregs, hadv, hpc⟩ := hcompletes op row.1 hop
  rw [branchTaken, hZ, hS, ← hrowCondition] at hpc
  exact ⟨t, ht, hregs, hpc ▸ hadv⟩

/-! ## Idioms of Table 2 -/

/-- Settles O34: the sum with the negated source is the difference, and the write reaches every channel. -/
theorem subtractIdiom : Obligations.SubtractIdiom := by
  unfold Obligations.SubtractIdiom
  intro eof i j k di dj dk s u v hhazards hu hv hd
  obtain ⟨va, vb, hva, hvb, hsum⟩ := sum_with_negated_source hhazards hu hv
  obtain ⟨t, ht, hwrites, -⟩ := rForm_completes (d := ⟨i, di, ⟨true, true, true⟩⟩) ⟨eof, 0⟩ hva hvb
    (aluRefusal_of_ne_logic (op := .add) (by decide) s) (fun _ => hd)
  refine ⟨t, ht, fun c => ?_⟩
  have ⟨hlength, _⟩ := hwrites
  have hchannel := channel_of_writes (c := c) hwrites (by cases c <;> rfl) (hlength ▸ hd)
  exact hchannel.trans (by rw [hsum])

/-- Settles O35: the difference is 0 in every lane exactly when the registers are equal. -/
theorem compareAndBranchIdiom : Obligations.CompareAndBranchIdiom := by
  unfold Obligations.CompareAndBranchIdiom
  intro eof tgt j k dj dk s u v hz hhazards hu hv
  obtain ⟨va, vb, hva, hvb, hcompletes⟩ := branchForm_completes (s := s) (a := ⟨j, dj, ⟨false, false, false⟩, ⟨.x, .y, .z⟩⟩)
    (b := ⟨k, dk, ⟨true, true, true⟩, ⟨.x, .y, .z⟩⟩) (readable_of_channel (hu .x)) (readable_of_channel (hv .x)) ⟨eof, 0⟩ tgt
  obtain ⟨va', vb', hva', hvb', hsum⟩ := sum_with_negated_source hhazards hu hv
  obtain rfl := Option.some.inj (hva.symm.trans hva')
  obtain rfl := Option.some.inj (hvb.symm.trans hvb')
  obtain ⟨t, ht, hregs, -, hpc⟩ := hcompletes .add .notZero (by simp)
  have hzero : zeroCondition s.cfg (aluResult .add 0 s va vb) = decide (u = v) :=
    Bool.eq_iff_iff.2 ((zeroCondition_of_differences hz hsum).trans (decide_eq_true_iff).symm)
  refine ⟨t, ht, hpc.trans ?_, hregs⟩
  rw [branchTaken, hzero]
  by_cases h : u = v <;> simp [branchCondition, h]

end Sys2Proof.Proofs
end
